-- ==== Sys2Proof/Word.lean ====
section
/-! DEFINITION. The words of the block and the widths of its operands (00_scope R7, R8; 30_encoding R70 to R72). -/

namespace Sys2Proof

/-- A command, response or request word: "Every word is exactly 16 bits" (R70). -/
abbrev Word := BitVec 16

/-- A channel number in the CHANNEL field or a tag: 4 bits, 0..15 (R7, R60). -/
abbrev Chan := BitVec 4

/-- A conversion result, and what a result slot holds: 12 bits, unsigned (R7, R21). -/
abbrev Payload := BitVec 12

/-- A count, size or slot index: `CNT_W = 5` bits, unsigned (R8, decision D4). -/
abbrev Count := BitVec 5

/-- A signed channel or start operand: `CH_IN_W = 8` bits, two's complement (R8, decision D3). -/
abbrev SignedOp := BitVec 8

end Sys2Proof
end

