-- ==== Sys2Proof/Config.lean ====
section
/-! DEFINITION. What an instance of the block fixes and what the spec leaves without a value. Every constant here is a free
value: it has no body, so no proof can lean on what it is. -/

namespace Sys2Proof.Config

/-- DESIGN CHOICE (log 4). `CS_ID`, OPEN and opaque (00_scope R8, decision D26): the identifier of the chip-select line. -/
opaque csId : Nat

/-- DESIGN CHOICE (log 4). `CLOCK_HZ`, OPEN, no default (00_scope R8, decision D20): the clock handed to `configure`. -/
opaque clockHz : Nat

/-- DESIGN CHOICE (log 4). `READALL_SCAN_MODE`, OPEN, any 4-bit code (00_scope R8, decision D11). -/
opaque readAllScanMode : BitVec 4

/-- DESIGN CHOICE (log 1, log 2). What hardware reset leaves in SLOT[i] (10_state R34: unspecified): of the reset drawn at
counter `k`. The same reading holds for the six constants below. -/
opaque resetSlot (k i : Nat) : Payload

/-- DESIGN CHOICE (log 1, log 2). IDX after hardware reset (R34: unspecified). -/
opaque resetIdx (k : Nat) : Count

/-- DESIGN CHOICE (log 1, log 2). OK after hardware reset (R34: unspecified). -/
opaque resetOk (k : Nat) : Bool

/-- DESIGN CHOICE (log 1, log 2). LASTCMD after hardware reset (R34: unspecified). -/
opaque resetLastCmd (k : Nat) : Word

/-- DESIGN CHOICE (log 1, log 2). The two bits of OP after hardware reset (R34: unspecified). -/
opaque resetOp (k : Nat) : BitVec 2

/-- DESIGN CHOICE (log 1, log 2). A after hardware reset (R34: unspecified). -/
opaque resetA (k : Nat) : SignedOp

/-- DESIGN CHOICE (log 1, log 2). N after hardware reset (R34: unspecified). -/
opaque resetN (k : Nat) : Count

/-- DESIGN CHOICE (log 1, log 2). LEN after hardware reset (R34: unspecified). -/
opaque resetLen (k : Nat) : Count

/-- DESIGN CHOICE (log 3). What the slot port answers for slot `i` while BUSY (70_reset R225: "any value"), at counter `k`. -/
opaque busySlot (k : Nat) (i : Count) : Payload

/-- DESIGN CHOICE (log 3). The OK bit of STATUS while BUSY (R30, R225), at counter `k`. -/
opaque busyOk (k : Nat) : Bool

/-- DESIGN CHOICE (log 3). The LEN field of STATUS while BUSY (R30, R225), at counter `k`. -/
opaque busyLen (k : Nat) : Count

end Sys2Proof.Config
end

