-- ==== Sys2Proof/Syntax.lean ====
section
/-! DEFINITION. The operations of the block as syntax: one constructor of `Instr` for each row of spec/opcode_table.json, with
the operands of 30_encoding R87, and the types those operands use. -/

namespace Sys2Proof

/-- SCAN_MODE's enumerators, in the spec's order (30_encoding R73). Codes: `ScanMode.code`. -/
inductive ScanMode where
  | none | manual | repeat | stdRangeInternal | stdRangeExternal | upperRangeInternal | upperRangeExternal
  | customRangeInternal | customRangeExternal
  deriving DecidableEq, Repr

/-- RESET's enumerators, in the spec's order (R74). -/
inductive ResetScope where
  | none | fifoOnly | all
  deriving DecidableEq, Repr

/-- POWER_MODE's enumerators, in the spec's order (R75). -/
inductive PowerMode where
  | normal | autoShutdown | autoStandby
  deriving DecidableEq, Repr

/-- What a 16-bit word is, decided by its direction on the bus and never by its bits (R70). -/
inductive WordKind where
  | command | response
  deriving DecidableEq, Repr

/-- A command or response value: "a tagged value type" with an explicit raw conversion (40_codec R115). -/
structure WordValue where
  kind : WordKind
  bits : Word
  deriving DecidableEq, Repr

/-- The operation code of a request (30_encoding R80, 10_state R27); all four 2-bit codes are assigned (R85). -/
inductive Op where
  | init | readChannel | readRange | readAll
  deriving DecidableEq, Repr

/-- Where a call enters the block: the request port (R36), or one combinational codec function, "not selected by any opcode"
(R89). DESIGN CHOICE (log 9): the spec gives the codec functions no port names. -/
inductive Port where
  | request
  | build | withChannel | setConfig | setScanMode | setReset | setPowerMode | setChannelIdEnable | setSoftwareConvert
  | respondingChannel | payload | buildResponse
  | toRaw (k : WordKind) | fromRaw (k : WordKind)
  | resetWord | defaultWord | manualCmd | sweepCmd
  deriving DecidableEq, Repr

/-- One constructor per row of the opcode table. Signed channel operands are integers and counts are natural numbers, as R80
("the abstract request is the tuple (op, a, n)") and R87 have them; `Instr.wellFormed` holds them to their ports. An operand
that goes into a field is as wide as the field (R79), so the codes that name no enumerator (R84) are operands too. -/
inductive Instr where
  /-- `INIT` (R134). `a` and `n` are the request's operand bits, which INIT ignores and latches (R81, D28). -/
  | init (a : Int) (n : Nat)
  /-- `READ_CHANNEL ch` (R136). `n` is ignored and latched. -/
  | readChannel (ch : Int) (n : Nat)
  /-- `READ_RANGE start, count` (R137). -/
  | readRange (start : Int) (count : Nat)
  /-- `READ_ALL size` (R138). `a` is ignored and latched. -/
  | readAll (size : Nat) (a : Int)
  /-- `BUILD scan, reset, pm, chid, swc, cfg` (R101). -/
  | build (scan : BitVec 4) (reset pm : BitVec 2) (chid swc cfg : Bool)
  /-- `WITH_CHANNEL w, ch` (R104). -/
  | withChannel (w : Word) (ch : Int)
  /-- `SET_CONFIG w, v` (R105). -/
  | setConfig (w : Word) (v : Bool)
  /-- `SET_SCAN_MODE w, v` (R106). -/
  | setScanMode (w : Word) (v : BitVec 4)
  /-- `SET_RESET w, v` (R107). -/
  | setReset (w : Word) (v : BitVec 2)
  /-- `SET_POWER_MODE w, v` (R108). -/
  | setPowerMode (w : Word) (v : BitVec 2)
  /-- `SET_CHANNEL_ID_ENABLE w, v` (R109). -/
  | setChannelIdEnable (w : Word) (v : Bool)
  /-- `SET_SOFTWARE_CONVERT w, v` (R110). -/
  | setSoftwareConvert (w : Word) (v : Bool)
  /-- `RESPONDING_CHANNEL w` (R112). -/
  | respondingChannel (w : Word)
  /-- `PAYLOAD w` (R113). -/
  | payload (w : Word)
  /-- `BUILD_RESPONSE ch, p` (R114). -/
  | buildResponse (ch : Chan) (p : Payload)
  /-- `TO_RAW v` (R115). -/
  | toRaw (v : WordValue)
  /-- `FROM_RAW x` (R115), giving a value of the kind asked for. -/
  | fromRaw (k : WordKind) (x : Word)
  /-- The constant `RESET_WORD` (R103). -/
  | resetWord
  /-- The constant `DEFAULT_WORD` (R102). -/
  | defaultWord
  /-- The engine word `ManualCmd(c)`, "c any integer" (R131). -/
  | manualCmd (c : Int)
  /-- The engine word `SweepCmd(n)` (R131). -/
  | sweepCmd (n : Nat)
  deriving DecidableEq, Repr

/-- `READ_ALL` with no operand is `READ_ALL 16` (R88). -/
abbrev Instr.readAllDefault : Instr := .readAll 16 0

/-- `SET_CHANNEL` is another name for `WITH_CHANNEL` (R88). -/
abbrev Instr.setChannel (w : Word) (ch : Int) : Instr := .withChannel w ch

/-- The port a call of this operation enters by. -/
def Instr.port : Instr → Port
  | .init _ _ | .readChannel _ _ | .readRange _ _ | .readAll _ _ => .request
  | .build _ _ _ _ _ _ => .build
  | .withChannel _ _ => .withChannel
  | .setConfig _ _ => .setConfig
  | .setScanMode _ _ => .setScanMode
  | .setReset _ _ => .setReset
  | .setPowerMode _ _ => .setPowerMode
  | .setChannelIdEnable _ _ => .setChannelIdEnable
  | .setSoftwareConvert _ _ => .setSoftwareConvert
  | .respondingChannel _ => .respondingChannel
  | .payload _ => .payload
  | .buildResponse _ _ => .buildResponse
  | .toRaw v => .toRaw v.kind
  | .fromRaw k _ => .fromRaw k
  | .resetWord => .resetWord
  | .defaultWord => .defaultWord
  | .manualCmd _ => .manualCmd
  | .sweepCmd _ => .sweepCmd

end Sys2Proof
end

