-- ==== Sys2Proof/WellFormed.lean ====
section
/-! DEFINITION. Which operations can be presented: a signed operand fits `CH_IN_W = 8` bits and a count fits `CNT_W = 5` bits
(00_scope R8, decisions D3 and D4: other operands "cannot be presented at all"). All other operands are exactly as wide as
their port (30_encoding R79). -/

namespace Sys2Proof

/-- The signed operand is in -128..127 (30_encoding R77, R80). -/
def fitsSigned (a : Int) : Bool := decide (-128 ≤ a ∧ a ≤ 127)

/-- The count or size is in 0..31 (R80). -/
def fitsCount (n : Nat) : Bool := decide (n < 32)

/-- Every operand of the operation fits its port. -/
def Instr.wellFormed : Instr → Bool
  | .init a n | .readChannel a n | .readRange a n | .readAll n a => fitsSigned a && fitsCount n
  | .withChannel _ ch => fitsSigned ch
  | .manualCmd c => fitsSigned c
  | .sweepCmd n => fitsCount n
  | .build _ _ _ _ _ _ | .setConfig _ _ | .setScanMode _ _ | .setReset _ _ | .setPowerMode _ _ | .setChannelIdEnable _ _
  | .setSoftwareConvert _ _ | .respondingChannel _ | .payload _ | .buildResponse _ _ | .toRaw _ | .fromRaw _ _ | .resetWord
  | .defaultWord => true

end Sys2Proof
end

