-- ==== Sys2Proof/Decode.lean ====
section
/-! DEFINITION. The decoder of the block's calls and, after it, the encoder (30_encoding R71, R72, R80, R81, R89).

A request word is cut by R80 and R81. A codec function has no opcode (R89), so a codec call names its port and carries words.
DESIGN CHOICE (log 9): where the table's row word carries all operands (BUILD, BUILD_RESPONSE, RESPONDING_CHANNEL, PAYLOAD,
TO_RAW, FROM_RAW, RESET_WORD, DEFAULT_WORD) the call is that one word; otherwise each operand is one word, in R87's order, its
bits at the low end and zeros above (R79). -/

namespace Sys2Proof

/-- Why the words of a call are no call. -/
inductive Reject where
  /-- A request word with bit 13 set, "reserved and refused" (R85). -/
  | reservedRequestBit
  /-- The port takes another number of words. The model's own (log 10). -/
  | wordCount
  /-- An operand word has a bit set above the port's width. The model's own (log 10). -/
  | operandTooWide
  /-- The word lacks the fixed bits of the table's row (BUILD, RESET_WORD, DEFAULT_WORD). The model's own (log 10). -/
  | fixedBits
  deriving DecidableEq, Repr

/-- The operation code's number (R80: 0 INIT, 1 READ_CHANNEL, 2 READ_RANGE, 3 READ_ALL). -/
def Op.code : Op → BitVec 2
  | .init => 0
  | .readChannel => 1
  | .readRange => 2
  | .readAll => 3

/-- The operation of a 2-bit code; every code is assigned (R85). -/
def Op.ofCode (c : BitVec 2) : Op :=
  if c = 0 then .init else if c = 1 then .readChannel else if c = 2 then .readRange else .readAll

/-- The operation of a request: its opcode with its operand bits (R80). -/
def requestInstr (op : Op) (a : SignedOp) (n : Count) : Instr :=
  match op with
  | .init => .init a.toInt n.toNat
  | .readChannel => .readChannel a.toInt n.toNat
  | .readRange => .readRange a.toInt n.toNat
  | .readAll => .readAll n.toNat a.toInt

/-- Decoding a request word (R81): `op = q[15:14]`, `n = q[12:8]` unsigned, `a = q[7:0]` signed; bit 13 must be 0 (R85). -/
def decodeRequest (q : Word) : Except Reject Instr :=
  if q.getLsbD 13 then .error .reservedRequestBit
  else .ok (requestInstr (Op.ofCode (q.extractLsb' 14 2)) (q.extractLsb' 0 8) (q.extractLsb' 8 5))

/-- The operand in the low `n` bits of its container; a bit above is not presentable (R79). -/
def operand (n : Nat) (w : Word) : Except Reject (BitVec n) :=
  if w.toNat < 2 ^ n then .ok (w.setWidth n) else .error .operandTooWide

/-- A 1-bit operand in its container: true is 1 and false is 0 (R76). -/
def operandBool (w : Word) : Except Reject Bool := (operand 1 w).map (fun b => b == 1)

/-- BUILD's row word `g ssss 0000 rr pp i w 0`: every operand at its field (R71, R101). -/
def decodeBuild (w : Word) : Except Reject Instr :=
  if w &&& 0x0781 = 0 then
    .ok (.build (w.extractLsb' 11 4) (w.extractLsb' 5 2) (w.extractLsb' 3 2) (w.getLsbD 2) (w.getLsbD 1) (w.getLsbD 15))
  else .error .fixedBits

/-- A call of a two-operand function: the word, then the second operand. -/
def decodePair {α : Type} (mk : Word → α → Instr) (second : Word → Except Reject α) : List Word → Except Reject Instr
  | [w, v] => (second v).map (mk w)
  | _ => .error .wordCount

/-- A call that is one word. -/
def decodeOne (f : Word → Except Reject Instr) : List Word → Except Reject Instr
  | [w] => f w
  | _ => .error .wordCount

/-- The fixed words' rows hold all 16 bits (R102, R103). -/
def decodeFixed (value : Word) (i : Instr) (w : Word) : Except Reject Instr :=
  if w = value then .ok i else .error .fixedBits

/-- The decoder: total on every port and every list of words. -/
def decode (p : Port) (ws : List Word) : Except Reject Instr :=
  match p with
  | .request => decodeOne decodeRequest ws
  | .build => decodeOne decodeBuild ws
  | .withChannel => decodePair (fun w (ch : SignedOp) => .withChannel w ch.toInt) (operand 8) ws
  | .setConfig => decodePair .setConfig operandBool ws
  | .setScanMode => decodePair .setScanMode (operand 4) ws
  | .setReset => decodePair .setReset (operand 2) ws
  | .setPowerMode => decodePair .setPowerMode (operand 2) ws
  | .setChannelIdEnable => decodePair .setChannelIdEnable operandBool ws
  | .setSoftwareConvert => decodePair .setSoftwareConvert operandBool ws
  | .respondingChannel => decodeOne (fun w => .ok (.respondingChannel w)) ws
  | .payload => decodeOne (fun w => .ok (.payload w)) ws
  | .buildResponse => decodeOne (fun w => .ok (.buildResponse (w.extractLsb' 12 4) (w.extractLsb' 0 12))) ws
  | .toRaw k => decodeOne (fun w => .ok (.toRaw ⟨k, w⟩)) ws
  | .fromRaw k => decodeOne (fun w => .ok (.fromRaw k w)) ws
  | .resetWord => decodeOne (decodeFixed 0x8040 .resetWord) ws
  | .defaultWord => decodeOne (decodeFixed 0x0806 .defaultWord) ws
  | .manualCmd => decodeOne (fun w => (operand 8 w).map fun c => .manualCmd c.toInt) ws
  | .sweepCmd => decodeOne (fun w => (operand 5 w).map fun n => .sweepCmd n.toNat) ws

/-- The request word `oo 0 nnnnn aaaaaaaa` (R80). -/
def encodeRequest (op : Op) (a : Int) (n : Nat) : Word :=
  op.code ++ 0#1 ++ BitVec.ofNat 5 n ++ BitVec.ofInt 8 a

/-- A 1-bit operand in its container (R76). -/
def boolWord (b : Bool) : Word := (BitVec.ofBool b).setWidth 16

/-- The words of a call, to be given at `i.port`. -/
def encode : Instr → List Word
  | .init a n => [encodeRequest .init a n]
  | .readChannel ch n => [encodeRequest .readChannel ch n]
  | .readRange start count => [encodeRequest .readRange start count]
  | .readAll size a => [encodeRequest .readAll a size]
  | .build scan reset pm chid swc cfg =>
    [BitVec.ofBool cfg ++ scan ++ 0#4 ++ reset ++ pm ++ BitVec.ofBool chid ++ BitVec.ofBool swc ++ 0#1]
  | .withChannel w ch => [w, (BitVec.ofInt 8 ch).setWidth 16]
  | .setConfig w v => [w, boolWord v]
  | .setScanMode w v => [w, v.setWidth 16]
  | .setReset w v => [w, v.setWidth 16]
  | .setPowerMode w v => [w, v.setWidth 16]
  | .setChannelIdEnable w v => [w, boolWord v]
  | .setSoftwareConvert w v => [w, boolWord v]
  | .respondingChannel w => [w]
  | .payload w => [w]
  | .buildResponse ch p => [ch ++ p]
  | .toRaw v => [v.bits]
  | .fromRaw _ x => [x]
  | .resetWord => [0x8040]
  | .defaultWord => [0x0806]
  | .manualCmd c => [(BitVec.ofInt 8 c).setWidth 16]
  | .sweepCmd n => [BitVec.ofNat 16 n]

/-- The operation read from a word of the opcode table's numbering. A word with no port named is a word at the request port,
the one place where the block reads an operation from a word's bits (R80, R81; R89: codec functions are "not selected by any
opcode"; log 9). A word of more than 16 bits is no word of this hardware (R70). -/
def decodeTableWord (nbits w : Nat) : Option Instr :=
  if nbits ≤ 16 ∧ w < 65536 then
    match decode .request [BitVec.ofNat 16 w] with
    | .ok i => some i
    | .error _ => none
  else none

end Sys2Proof
end

