-- ==== Sys2Proof/Machine/State.lean ====
section
/-! DEFINITION. Everything the spec gives the machine as plain data (10_state R20 to R30), the event trace the outside sees
(20_memory R51), the model's own fields, why a step can stop, and the machine right after reset (R34). -/

namespace Sys2Proof.Machine

/-- `STATE`, the sequencer's position (10_state R22). Codes 5, 6, 7 "are never produced by any rule" and are no constructor
(log 15). Codes: `SeqState.code`. -/
inductive SeqState where
  | uninit | init | idle | priming | steady
  deriving DecidableEq, Repr

/-- The bit order handed to `configure`: `MSB_FIRST` "as the only value" (R29, R55). -/
inductive BitOrder where
  | msbFirst
  deriving DecidableEq, Repr

/-- The bus mode handed to `configure`: `MODE_3`, fixed (R29, R55). -/
inductive BusMode where
  | mode3
  deriving DecidableEq, Repr

/-- `CFG`, the constant configuration of the handle (R29). -/
structure Cfg where
  csId : Nat
  clockHz : Nat
  bitOrder : BitOrder
  mode : BusMode
  deriving DecidableEq, Repr

/-- One event of the bus-side trace (20_memory R51). -/
inductive Event where
  | configure (clockHz : Nat) (order : BitOrder) (mode : BusMode)
  | txnBegin
  | txnEnd
  | csAssert
  | xchg (tx rx : Word)
  | csDeassert
  | settle
  deriving DecidableEq, Repr

/-- What a codec function answers at its output (40_codec): a word value, a raw 16-bit integer, a tag or a payload. The model's
own type (log 11). -/
inductive CodecResult where
  | value (v : WordValue)
  | raw (x : Word)
  | tag (c : Chan)
  | data (p : Payload)
  deriving DecidableEq, Repr

/-- One act of the outside. The model's own type (log 6): the owner's calls (10_state R36), the bus side's answers (20_memory
R52, R63) and the reset line (70_reset R210). -/
inductive Input where
  /-- The owner presents a request for one step (port `request`), or evaluates a codec function. -/
  | call (p : Port) (ws : List Word)
  /-- The exchange returns `rx`, any word (R52). -/
  | answer (rx : Word)
  /-- The exchange returns by two 8-bit exchanges, the high byte first (R56). -/
  | answerBytes (hi lo : BitVec 8)
  /-- Chip-select is asserted and the exchange has not returned yet (R63). -/
  | stall
  /-- Hardware reset (R210). -/
  | hwReset
  deriving DecidableEq, Repr

/-- Why the machine stops with a fault: never. "No exceptions/panics anywhere in the core" (60_exceptions R180); nothing of this
block is treated as a fault (93_implementation_defined, part 1), so there is no constructor and nothing raises one (safe). -/
inductive Fault where
  deriving DecidableEq, Repr

/-- Why `exec` may give an operation no meaning. -/
inductive Refusal where
  /-- Raised by an arm of `exec` whose operation has no meaning yet (safe); at present no arm raises it. A request the block
  refuses (60_exceptions R186) is not this: it is a step in which nothing changes. -/
  | notModelled (mnemonic : String)
  deriving DecidableEq, Repr

/-- The machine: the registers of 10_state R20, the instance's parameters, the trace, and the model's own fields. -/
@[ext]
structure State where
  /-- `SLOT[0..31]` (R21). -/
  slot : Vector Payload 32
  /-- `STATE` (R22). -/
  st : SeqState
  /-- `IDX` (R23). -/
  idx : Count
  /-- `OK` (R24). -/
  ok : Bool
  /-- `LASTCMD` (R26). -/
  lastCmd : Word
  /-- `OP`, a request latch (R27). -/
  op : Op
  /-- `A`, a request latch (R27). -/
  a : SignedOp
  /-- `N`, a request latch (R27). -/
  n : Count
  /-- `LEN` (R28). -/
  len : Count
  /-- `CFG` (R29). -/
  cfg : Cfg
  /-- The instance's parameter `READALL_SCAN_MODE` (00_scope R8). -/
  readAllScanMode : BitVec 4
  /-- A chip-select frame is open and its exchange has not returned (20_memory R63; log 12). -/
  inXfer : Bool
  /-- The bus-side event trace, oldest event first (R51). -/
  trace : List Event
  /-- The model's own: what the outside does next, in order (log 6). -/
  inputs : List Input
  /-- The model's own: the answer of the codec function evaluated last (log 11). -/
  codecOut : Option CodecResult
  /-- The model's own: the counter that indexes free values (log 2, log 3). -/
  free : Nat
  deriving DecidableEq, Repr

/-- The result slots a hardware reset leaves, drawn at counter `k` (R34: "unspecified, every slot"; log 1, log 2). -/
def resetSlots (k : Nat) : Vector Payload 32 :=
  let f := Config.resetSlot k
  #v[
    f 0, f 1, f 2, f 3, f 4, f 5, f 6, f 7,
    f 8, f 9, f 10, f 11, f 12, f 13, f 14, f 15,
    f 16, f 17, f 18, f 19, f 20, f 21, f 22, f 23,
    f 24, f 25, f 26, f 27, f 28, f 29, f 30, f 31]

/-- The machine right after hardware reset (R34): STATE is UNINIT, every other register unspecified (log 1), the trace empty
(95_test_vectors 2.11), nothing placed at the inputs. -/
def State.reset : State where
  slot := resetSlots 0
  st := .uninit
  idx := Config.resetIdx 0
  ok := Config.resetOk 0
  lastCmd := Config.resetLastCmd 0
  op := Op.ofCode (Config.resetOp 0)
  a := Config.resetA 0
  n := Config.resetN 0
  len := Config.resetLen 0
  cfg := { csId := Config.csId, clockHz := Config.clockHz, bitOrder := .msbFirst, mode := .mode3 }
  readAllScanMode := Config.readAllScanMode
  inXfer := false
  trace := []
  inputs := []
  codecOut := none
  free := 0

end Sys2Proof.Machine
end

