-- ==== Sys2Proof/Machine/Operands.lean ====
section
/-! DEFINITION. Operand forms: the enumerators' codes (30_encoding R73 to R75), the clamp and the floor modulus (00_scope R10),
the fields of a command word and the law of all setters (30_encoding R71, 40_codec R111), BUILD's defaults (R88, R101), and the
order of bits and bytes on the bus (20_memory R55, R56). -/

namespace Sys2Proof

/-- SCAN_MODE codes: "each its position in the source's list, counting from 0" (R73, decision D1). -/
def ScanMode.code : ScanMode → BitVec 4
  | .none => 0
  | .manual => 1
  | .repeat => 2
  | .stdRangeInternal => 3
  | .stdRangeExternal => 4
  | .upperRangeInternal => 5
  | .upperRangeExternal => 6
  | .customRangeInternal => 7
  | .customRangeExternal => 8

/-- RESET codes by list position (R74, decision D1). -/
def ResetScope.code : ResetScope → BitVec 2
  | .none => 0
  | .fifoOnly => 1
  | .all => 2

/-- POWER_MODE codes by list position (R75, decision D1). -/
def PowerMode.code : PowerMode → BitVec 2
  | .normal => 0
  | .autoShutdown => 1
  | .autoStandby => 2

namespace Machine

/-- `clamp15(c)`: 0 below 0, 15 above 15, else `c` (00_scope R10). -/
def clamp15 (c : Int) : Int := if c < 0 then 0 else if 15 < c then 15 else c

/-- `c mod 16`, the floor modulus: the unique `r` in 0..15 with `c - r` divisible by 16 (00_scope R10, decision D10). -/
def mod16 (c : Int) : Int := c % 16

/-- The 4-bit field that holds the clamp of an integer (30_encoding R77). -/
def clampField (c : Int) : Chan := BitVec.ofInt 4 (clamp15 c)

/-- A field of a command word: its lowest bit and its width (30_encoding R71). -/
structure Field where
  lo : Nat
  width : Nat
  deriving DecidableEq, Repr

/-- CONFIG, bit 15 (R71). -/
def fConfig : Field := ⟨15, 1⟩
/-- SCAN_MODE, bits 14:11 (R71). -/
def fScanMode : Field := ⟨11, 4⟩
/-- CHANNEL, bits 10:7 (R71). -/
def fChannel : Field := ⟨7, 4⟩
/-- RESET, bits 6:5 (R71). -/
def fReset : Field := ⟨5, 2⟩
/-- POWER_MODE, bits 4:3 (R71). -/
def fPowerMode : Field := ⟨3, 2⟩
/-- CHANNEL_ID_ENABLE, bit 2 (R71). -/
def fChannelIdEnable : Field := ⟨2, 1⟩
/-- SOFTWARE_CONVERT, bit 1 (R71). -/
def fSoftwareConvert : Field := ⟨1, 1⟩

/-- The mask of a field: ones at its bits (R71). -/
def Field.mask (f : Field) : Word := BitVec.ofNat 16 ((2 ^ f.width - 1) <<< f.lo)

/-- The law of all setters: "clears its field's bits then ORs in the new value" (40_codec R111). -/
def setField (f : Field) (w : Word) (v : BitVec f.width) : Word :=
  (w &&& ~~~f.mask) ||| ((v.setWidth 16 <<< f.lo) &&& f.mask)

/-- A field read from a command word; notation of 40_codec R116, used in statements. -/
def readField (f : Field) (w : Word) : BitVec f.width := w.extractLsb' f.lo f.width

/-- BUILD's operands as a caller may give them, each possibly left out (40_codec R101). -/
structure BuildOperands where
  scan : Option (BitVec 4) := none
  reset : Option (BitVec 2) := none
  pm : Option (BitVec 2) := none
  chid : Option Bool := none
  swc : Option Bool := none
  cfg : Option Bool := none
  deriving DecidableEq, Repr

/-- "Each operand left out takes its default": MANUAL, NONE, NORMAL, true, true, false (R88, R101). -/
def BuildOperands.expand (o : BuildOperands) : Instr :=
  .build (o.scan.getD ScanMode.manual.code) (o.reset.getD ResetScope.none.code) (o.pm.getD PowerMode.normal.code)
    (o.chid.getD true) (o.swc.getD true) (o.cfg.getD false)

/-- The bits of a word in the order they cross the wire: "Bit 15 of `tx` is the first bit" (20_memory R55). -/
def wireBits (w : Word) : List Bool := (List.range 16).map fun k => w.getLsbD (15 - k)

/-- The word whose bits arrive in this order, the first received being the most significant (20_memory R55). -/
def ofWireBits (bits : List Bool) : Word := bits.foldl (fun w b => (w <<< 1) ||| (BitVec.ofBool b).setWidth 16) 0

/-- The response made of two bytes, "with `high` the first byte received": `(high << 8) | low` (20_memory R56). -/
def joinBytes (hi lo : BitVec 8) : Word := (hi.setWidth 16 <<< 8) ||| lo.setWidth 16

/-- The two bytes of a word in the order they are sent: `tx[15:8]`, then `tx[7:0]` (20_memory R56). -/
def sentBytes (w : Word) : BitVec 8 × BitVec 8 := (w.extractLsb' 8 8, w.extractLsb' 0 8)

end Machine

end Sys2Proof
end

