-- ==== Sys2Proof/Machine/Flags.lean ====
section
/-! DEFINITION. The flags and what feeds them: the tag comparison (41_engine R132), OK's accumulation (42_sequencer R165, R166),
BUSY (10_state R25) and the STATUS view (R30). -/

namespace Sys2Proof.Machine

/-- TAG of a response word, bits 15:12 (30_encoding R72, 40_codec R112). -/
def tagOf (w : Word) : Chan := w.extractLsb' 12 4

/-- PAYLOAD of a response word, bits 11:0 (R72, R113). -/
def payloadOf (w : Word) : Payload := w.extractLsb' 0 12

/-- `Match(r, e)`: "compared as integers; e may be negative or above 15" (41_engine R132). -/
def tagMatches (r : Word) (e : Int) : Bool := decide (((tagOf r).toNat : Int) = e)

/-- `Validate(r, e)`: the payload if the tag matches, else the sentinel 0 (R132). -/
def validate (r : Word) (e : Int) : Payload := if tagMatches r e then payloadOf r else 0

/-- OK when a priming transfer completes: set by READ_ALL, kept by the other operations (42_sequencer R165). -/
def okPrimed (op : Op) (ok : Bool) : Bool := if op = .readAll then true else ok

/-- OK after a harvest of index `i`: `OK AND Match(rx, i)` in READ_ALL, kept by the others (42_sequencer R166). -/
def okHarvested (op : Op) (i : Count) (rx : Word) (ok : Bool) : Bool :=
  if op = .readAll then ok && tagMatches rx i.toNat else ok

/-- The numeric code of `STATE` (10_state R22). -/
def SeqState.code : SeqState → BitVec 3
  | .uninit => 0
  | .init => 1
  | .idle => 2
  | .priming => 3
  | .steady => 4

/-- `BUSY = 1` exactly in INIT, PRIMING and STEADY (R25). -/
def SeqState.busy : SeqState → Bool
  | .uninit | .idle => false
  | .init | .priming | .steady => true

/-- `BUSY`, a view (R25). -/
def State.busy (s : State) : Bool := s.st.busy

/-- The OK bit as the owner reads it: while BUSY "not architecturally defined", a free value (R30, 70_reset R225; log 3). -/
def State.okSeen (s : State) : Bool := if s.busy then Config.busyOk s.free else s.ok

/-- The LEN field as the owner reads it: while BUSY a free value (R30, R225; log 3). -/
def State.lenSeen (s : State) : Count := if s.busy then Config.busyLen s.free else s.len

/-- `STATUS`: STATE in 2:0, BUSY in 3, OK in 4, LEN in 9:5, zeros in 15:10 (R30). -/
def State.statusWord (s : State) : Word :=
  0#6 ++ s.lenSeen ++ BitVec.ofBool s.okSeen ++ BitVec.ofBool s.busy ++ s.st.code

end Sys2Proof.Machine
end

