-- ==== Sys2Proof/Machine/Ops.lean ====
section
/-! DEFINITION. The named operations over the state: events (20_memory R51), one transfer (R53), the owner's read ports (10_state
R37, R38), a refused request (60_exceptions R186) and hardware reset (70_reset R210).

There is no memory to read or write (10_state R32). There is no exception to take and none to return from (60_exceptions R180,
R191, R192): the only answer to a request that cannot be taken is `refuse`. -/

namespace Sys2Proof.Machine

/-- `emit E1 ; emit E2 ; …`: append events to the trace (00_scope R10, 20_memory R51). -/
def State.emit (s : State) (es : List Event) : State := { s with trace := s.trace ++ es }

/-- `SLOT[i] <- v` (00_scope R10); every index of `CNT_W` bits is a slot (10_state R37). -/
def State.setSlot (s : State) (i : Count) (v : Payload) : State := { s with slot := s.slot.set i.toNat v i.isLt }

/-- `SLOT[i]`, the register itself. -/
def State.slotAt (s : State) (i : Count) : Payload := s.slot[i.toNat]'i.isLt

/-- The slot read port: `zext_16(SLOT[slot_addr])`, no side effect; while BUSY any value (R37, 70_reset R225; log 3). -/
def State.slotData (s : State) (addr : Count) : Word :=
  if s.busy then (Config.busySlot s.free addr).setWidth 16 else (s.slotAt addr).setWidth 16

/-- The status port: STATUS and LASTCMD, no side effect (R38). LASTCMD is exact at every step (42_sequencer R171). -/
def State.statusPort (s : State) : Word × Word := (s.statusWord, s.lastCmd)

/-- The events of one transfer, less the CS_ASSERT if the frame is open already (R53; log 12). -/
def frameEvents (opened : Bool) (tx rx : Word) : List Event :=
  (if opened then [] else [.csAssert]) ++ [.xchg tx rx, .csDeassert, .settle]

/-- `Xfer(tx) -> rx`: one exchange in one chip-select frame, then `LASTCMD <- tx` (R53). -/
def xfer (tx rx : Word) (s : State) : State :=
  { s.emit (frameEvents s.inXfer tx rx) with lastCmd := tx, inXfer := false }

/-- The exchange of an operation in progress is begun and does not return: "CS_ASSERT has been emitted and CS_DEASSERT has not"
(R63). With no operation in progress, or the frame open already, nothing happens. -/
def stall (s : State) : State :=
  if s.busy && !s.inXfer then { s.emit [.csAssert] with inXfer := true } else s

/-- A refused request: "no register changes, no event is emitted, no transfer is made" (60_exceptions R186). -/
def refuse (s : State) : State := s

/-- Words that are no call: a reserved request word is refused (30_encoding R85); words no port can carry change nothing
either (DESIGN CHOICE, log 10). -/
def rejectCall (r : Reject) (s : State) : State :=
  match r with
  | .reservedRequestBit => refuse s
  | .wordCount | .operandTooWide | .fixedBits => s

/-- Hardware reset: `STATE <- UNINIT`, every other register unspecified; "Reset emits no event" (70_reset R210, 10_state R34).
The unspecified values are drawn at the counter (log 2). The parameters are not registers (R29). -/
def hardwareReset (s : State) : State :=
  { s with
    slot := resetSlots s.free
    st := .uninit
    idx := Config.resetIdx s.free
    ok := Config.resetOk s.free
    lastCmd := Config.resetLastCmd s.free
    op := Op.ofCode (Config.resetOp s.free)
    a := Config.resetA s.free
    n := Config.resetN s.free
    len := Config.resetLen s.free
    inXfer := false }

/-- A codec function's answer appears at its output; nothing else changes (40_codec R100; log 11). -/
def State.codecAnswer (s : State) (r : CodecResult) : State := { s with codecOut := some r }

/-- The step takes the first input and advances the counter of free values (log 2, log 6). -/
def State.consume (s : State) (rest : List Input) : State := { s with inputs := rest, free := s.free + 1 }

/-- The owner presents this request word next (10_state R36). -/
def State.presentWord (s : State) (w : Word) : State := { s with inputs := .call .request [w] :: s.inputs }

end Sys2Proof.Machine
end

