-- ==== Sys2Proof/Machine/Codec.lean ====
section
/-! DEFINITION. The Command Word Codec: its pure functions (40_codec) and, below them, the meanings of the operations that
evaluate one. A codec function "is defined for every operand value", reads and writes no register and touches no bus (R100), so
each meaning changes the codec's output and nothing else (log 11), in every state, BUSY or not (42_sequencer R160). -/

namespace Sys2Proof.Machine

/-- `BUILD`: the fields shifted to their places and ORed; CHANNEL and bit 0 are 0 (R101). -/
def buildWord (scan : BitVec 4) (reset pm : BitVec 2) (chid swc cfg : Bool) : Word :=
  ((BitVec.ofBool cfg).setWidth 16 <<< 15) ||| (scan.setWidth 16 <<< 11) ||| (reset.setWidth 16 <<< 5) |||
    (pm.setWidth 16 <<< 3) ||| ((BitVec.ofBool chid).setWidth 16 <<< 2) ||| ((BitVec.ofBool swc).setWidth 16 <<< 1)

/-- `DEFAULT_WORD`, "BUILD with every operand at its default" (R102). -/
def defaultWord : Word :=
  buildWord ScanMode.manual.code ResetScope.none.code PowerMode.normal.code true true false

/-- `RESET_WORD`: NONE, ALL, NORMAL, false, false, true (R103). -/
def resetWord : Word :=
  buildWord ScanMode.none.code ResetScope.all.code PowerMode.normal.code false false true

/-- `WITH_CHANNEL w, ch`: CHANNEL becomes `clamp15(ch)`, all other bits pass through (R104). -/
def withChannel (w : Word) (ch : Int) : Word := setField fChannel w (clampField ch)

/-- `BUILD_RESPONSE ch, p`: `(ch << 12) | p` (R114). -/
def buildResponse (ch : Chan) (p : Payload) : Word := (ch.setWidth 16 <<< 12) ||| p.setWidth 16

/-- `TO_RAW v`: the bits of the value (R115). -/
def toRaw (v : WordValue) : Word := v.bits

/-- `FROM_RAW x`: the value of the kind asked for whose bits are `x` (R115). -/
def fromRaw (k : WordKind) (x : Word) : WordValue := ⟨k, x⟩

/-- `ManualCmd(c) = WITH_CHANNEL(BUILD(), c)` (41_engine R131). -/
def manualCmd (c : Int) : Word := withChannel defaultWord c

/-- `SweepCmd(n) = WITH_CHANNEL(BUILD(scan = READALL_SCAN_MODE), n - 1)`, `n - 1` on integers (41_engine R131). -/
def sweepCmd (mode : BitVec 4) (n : Nat) : Word :=
  withChannel (buildWord mode ResetScope.none.code PowerMode.normal.code true true false) ((n : Int) - 1)

/-- The codec answers a command word. -/
def State.answerCommand (s : State) (w : Word) : State := s.codecAnswer (.value ⟨.command, w⟩)

/-- BUILD (R101). -/
def execBuild (scan : BitVec 4) (reset pm : BitVec 2) (chid swc cfg : Bool) (s : State) : Host.Outcome State Fault Refusal :=
  .next (s.answerCommand (buildWord scan reset pm chid swc cfg))

/-- WITH_CHANNEL (R104). -/
def execWithChannel (w : Word) (ch : Int) (s : State) : Host.Outcome State Fault Refusal :=
  .next (s.answerCommand (withChannel w ch))

/-- SET_CONFIG (R105). -/
def execSetConfig (w : Word) (v : Bool) (s : State) : Host.Outcome State Fault Refusal :=
  .next (s.answerCommand (setField fConfig w (BitVec.ofBool v)))

/-- SET_SCAN_MODE (R106). -/
def execSetScanMode (w : Word) (v : BitVec 4) (s : State) : Host.Outcome State Fault Refusal :=
  .next (s.answerCommand (setField fScanMode w v))

/-- SET_RESET (R107). -/
def execSetReset (w : Word) (v : BitVec 2) (s : State) : Host.Outcome State Fault Refusal :=
  .next (s.answerCommand (setField fReset w v))

/-- SET_POWER_MODE (R108). -/
def execSetPowerMode (w : Word) (v : BitVec 2) (s : State) : Host.Outcome State Fault Refusal :=
  .next (s.answerCommand (setField fPowerMode w v))

/-- SET_CHANNEL_ID_ENABLE (R109). -/
def execSetChannelIdEnable (w : Word) (v : Bool) (s : State) : Host.Outcome State Fault Refusal :=
  .next (s.answerCommand (setField fChannelIdEnable w (BitVec.ofBool v)))

/-- SET_SOFTWARE_CONVERT (R110). -/
def execSetSoftwareConvert (w : Word) (v : Bool) (s : State) : Host.Outcome State Fault Refusal :=
  .next (s.answerCommand (setField fSoftwareConvert w (BitVec.ofBool v)))

/-- RESPONDING_CHANNEL (R112). -/
def execRespondingChannel (w : Word) (s : State) : Host.Outcome State Fault Refusal :=
  .next (s.codecAnswer (.tag (tagOf w)))

/-- PAYLOAD (R113). -/
def execPayload (w : Word) (s : State) : Host.Outcome State Fault Refusal :=
  .next (s.codecAnswer (.data (payloadOf w)))

/-- BUILD_RESPONSE (R114). -/
def execBuildResponse (ch : Chan) (p : Payload) (s : State) : Host.Outcome State Fault Refusal :=
  .next (s.codecAnswer (.value ⟨.response, buildResponse ch p⟩))

/-- TO_RAW (R115). -/
def execToRaw (v : WordValue) (s : State) : Host.Outcome State Fault Refusal :=
  .next (s.codecAnswer (.raw (toRaw v)))

/-- FROM_RAW (R115). -/
def execFromRaw (k : WordKind) (x : Word) (s : State) : Host.Outcome State Fault Refusal :=
  .next (s.codecAnswer (.value (fromRaw k x)))

/-- RESET_WORD (R103). -/
def execResetWord (s : State) : Host.Outcome State Fault Refusal := .next (s.answerCommand resetWord)

/-- DEFAULT_WORD (R102). -/
def execDefaultWord (s : State) : Host.Outcome State Fault Refusal := .next (s.answerCommand defaultWord)

/-- MANUAL_CMD (41_engine R131). -/
def execManualCmd (c : Int) (s : State) : Host.Outcome State Fault Refusal := .next (s.answerCommand (manualCmd c))

/-- SWEEP_CMD, with the instance's scan mode (41_engine R131). -/
def execSweepCmd (n : Nat) (s : State) : Host.Outcome State Fault Refusal :=
  .next (s.answerCommand (sweepCmd s.readAllScanMode n))

end Sys2Proof.Machine
end

