-- ==== Sys2Proof/Machine/Sequencer.lean ====
section
/-! DEFINITION. The sequencer, one transfer per step (42_sequencer): readiness (R161), the accept steps (R162, R163), the transfer
steps (R164 to R166) with their helper functions (R167), and the run of an operation on the answers at hand. -/

namespace Sys2Proof.Machine

/-- Whether a request of this operation is accepted in this position: the table of R161 (bit 13 apart, which no operation has). -/
def accepts (st : SeqState) (op : Op) : Bool :=
  match st with
  | .uninit => decide (op = .init)
  | .idle => true
  | .init | .priming | .steady => false

/-- `req_ready` for the request word presented (10_state R36, R161; bit 13 set: 30_encoding R85). -/
def State.reqReady (s : State) (q : Word) : Bool := !q.getLsbD 13 && accepts s.st (Op.ofCode (q.extractLsb' 14 2))

/-- `Total(OP, N)`, the number of harvest transfers (R167). INIT has none: it never reaches PRIMING or STEADY (log 15). -/
def total (op : Op) (n : Count) : Nat :=
  match op with
  | .init => 0
  | .readChannel => 1
  | .readRange | .readAll => n.toNat

/-- `PrimeCmd(OP, A, N)`, the word of the priming transfer (R167); for INIT its one word (R164). -/
def primeCmd (mode : BitVec 4) (op : Op) (a : SignedOp) (n : Count) : Word :=
  match op with
  | .init => resetWord
  | .readChannel | .readRange => manualCmd a.toInt
  | .readAll => sweepCmd mode n.toNat

/-- `SteadyCmd(OP, A, N, i)`, the word of harvest transfer `i` (R167). -/
def steadyCmd (mode : BitVec 4) (op : Op) (a : SignedOp) (n i : Count) : Word :=
  match op with
  | .init => resetWord
  | .readChannel => manualCmd a.toInt
  | .readRange => manualCmd (mod16 (a.toInt + i.toNat + 1))
  | .readAll => sweepCmd mode n.toNat

/-- `Expected(OP, A, i)`, the integer the tag must equal, not reduced (R167, 41_engine R137). -/
def expected (op : Op) (a : SignedOp) (i : Count) : Int :=
  match op with
  | .init | .readChannel => a.toInt
  | .readRange => a.toInt + i.toNat
  | .readAll => i.toNat

/-- The request latches take the accepted request (10_state R27). -/
def State.latch (s : State) (op : Op) (a : SignedOp) (n : Count) : State := { s with op := op, a := a, n := n }

/-- Accept step of a read operation (R162). No exchange is outstanding when an operation begins. -/
def acceptRead (op : Op) (a : SignedOp) (n : Count) (s : State) : State :=
  { (s.latch op a n).emit [.txnBegin] with idx := 0, st := .priming, inXfer := false }

/-- Accept step of INIT (R163): chip-select inactive, bus configured, bracket opened. -/
def acceptInit (a : SignedOp) (n : Count) (s : State) : State :=
  { (s.latch .init a n).emit
      [.csDeassert, .settle, .configure s.cfg.clockHz s.cfg.bitOrder s.cfg.mode, .txnBegin] with
    st := .init, inXfer := false }

/-- The accept step of a request the block is ready for (R162, R163). -/
def accept (op : Op) (a : SignedOp) (n : Count) (s : State) : State :=
  match op with
  | .init => acceptInit a n s
  | .readChannel | .readRange | .readAll => acceptRead op a n s

/-- `emit TXN_END ; STATE <- IDLE`, the end of every operation (R164 to R166). -/
def finish (s : State) : State := { s.emit [.txnEnd] with st := .idle }

/-- Transfer step in INIT: the Reset command word; `rx` is ignored (R164). -/
def transferInit (rx : Word) (s : State) : State := finish (xfer resetWord rx s)

/-- Transfer step in PRIMING: the priming transfer, its response discarded (R165). -/
def transferPriming (rx : Word) (s : State) : State :=
  let s' := { xfer (primeCmd s.readAllScanMode s.op s.a s.n) rx s with ok := okPrimed s.op s.ok }
  if total s.op s.n = 0 then finish { s' with len := 0 } else { s' with st := .steady }

/-- Transfer step in STEADY: harvest transfer `i = IDX` (R166). -/
def transferSteady (rx : Word) (s : State) : State :=
  let s' := { (xfer (steadyCmd s.readAllScanMode s.op s.a s.n s.idx) rx s).setSlot s.idx
      (validate rx (expected s.op s.a s.idx)) with
    ok := okHarvested s.op s.idx rx s.ok
    idx := s.idx + 1 }
  if s.idx.toNat + 1 = total s.op s.n then finish { s' with len := BitVec.ofNat 5 (total s.op s.n) } else s'

/-- The transfer step the position calls for when the bus side supplies `rx` (R164 to R166). With no operation in progress there
is no exchange to answer, and nothing happens (log 14). -/
def transfer (rx : Word) (s : State) : State :=
  match s.st with
  | .uninit | .idle => s
  | .init => transferInit rx s
  | .priming => transferPriming rx s
  | .steady => transferSteady rx s

/-- The word an input brings to the exchange in progress, if it is an answer (20_memory R52, R56). -/
def Input.word? : Input → Option Word
  | .answer rx => some rx
  | .answerBytes hi lo => some (joinBytes hi lo)
  | .call _ _ | .stall | .hwReset => none

/-- The operation in progress runs on the answers that stand at the head of `ins`, one transfer an answer, until it is complete
or the bus side gives no answer: then the engine stays where it is, BUSY (20_memory R63; log 7). -/
def runOnAnswers (ins : List Input) (s : State) : State :=
  match ins with
  | [] => s
  | i :: rest =>
    match i.word? with
    | some rx => if s.busy then runOnAnswers rest (transfer rx { s with inputs := rest }) else s
    | none => s

/-- A request is presented: if the block is ready it is accepted and its operation runs, else it is refused and nothing changes
(R161, 60_exceptions R186 to R188; log 7, log 8). -/
def present (op : Op) (a : SignedOp) (n : Count) (s : State) : State :=
  if accepts s.st op then runOnAnswers s.inputs (accept op a n s) else refuse s

end Sys2Proof.Machine
end

