-- ==== Sys2Proof/Machine/Engine.lean ====
section
/-! DEFINITION. The Channel Scan Engine's four operations (41_engine), each the presentation of its request: accepted where R161
allows, it runs to completion on the answers the bus side has given (R130); otherwise nothing changes. -/

namespace Sys2Proof.Machine

/-- INIT (R134): one transfer of the Reset command word after CS_DEASSERT, SETTLE and CONFIGURE. Accepted in UNINIT and IDLE. -/
def execInit (a : Int) (n : Nat) (s : State) : Host.Outcome State Fault Refusal :=
  .next (present .init (BitVec.ofInt 8 a) (BitVec.ofNat 5 n) s)

/-- READ_CHANNEL (R136): two transfers of `ManualCmd(ch)`, SLOT[0] from the second response. Accepted in IDLE. -/
def execReadChannel (ch : Int) (n : Nat) (s : State) : Host.Outcome State Fault Refusal :=
  .next (present .readChannel (BitVec.ofInt 8 ch) (BitVec.ofNat 5 n) s)

/-- READ_RANGE (R137): `count + 1` transfers, the requested channel wrapping, each slot validated by itself. Accepted in IDLE. -/
def execReadRange (start : Int) (count : Nat) (s : State) : Host.Outcome State Fault Refusal :=
  .next (present .readRange (BitVec.ofInt 8 start) (BitVec.ofNat 5 count) s)

/-- READ_ALL (R138): `size + 1` transfers of `SweepCmd(size)`, each slot validated against its index, OK the conjunction.
Accepted in IDLE. -/
def execReadAll (size : Nat) (a : Int) (s : State) : Host.Outcome State Fault Refusal :=
  .next (present .readAll (BitVec.ofInt 8 a) (BitVec.ofNat 5 size) s)

end Sys2Proof.Machine
end

