-- ==== Sys2Proof/Machine/Dispatch.lean ====
section
/-! DEFINITION. One arm per operation: what `exec` does with each constructor of `Instr`. -/

namespace Sys2Proof.Machine

def exec (i : Instr) (s : State) : Host.Outcome State Fault Refusal :=
  match i with
  | .init a n => Sys2Proof.Machine.execInit a n s
  | .readChannel ch n => Sys2Proof.Machine.execReadChannel ch n s
  | .readRange start count => Sys2Proof.Machine.execReadRange start count s
  | .readAll size a => Sys2Proof.Machine.execReadAll size a s
  | .build scan reset pm chid swc cfg => Sys2Proof.Machine.execBuild scan reset pm chid swc cfg s
  | .withChannel w ch => Sys2Proof.Machine.execWithChannel w ch s
  | .setConfig w v => Sys2Proof.Machine.execSetConfig w v s
  | .setScanMode w v => Sys2Proof.Machine.execSetScanMode w v s
  | .setReset w v => Sys2Proof.Machine.execSetReset w v s
  | .setPowerMode w v => Sys2Proof.Machine.execSetPowerMode w v s
  | .setChannelIdEnable w v => Sys2Proof.Machine.execSetChannelIdEnable w v s
  | .setSoftwareConvert w v => Sys2Proof.Machine.execSetSoftwareConvert w v s
  | .respondingChannel w => Sys2Proof.Machine.execRespondingChannel w s
  | .payload w => Sys2Proof.Machine.execPayload w s
  | .buildResponse ch p => Sys2Proof.Machine.execBuildResponse ch p s
  | .toRaw v => Sys2Proof.Machine.execToRaw v s
  | .fromRaw k x => Sys2Proof.Machine.execFromRaw k x s
  | .resetWord => Sys2Proof.Machine.execResetWord s
  | .defaultWord => Sys2Proof.Machine.execDefaultWord s
  | .manualCmd c => Sys2Proof.Machine.execManualCmd c s
  | .sweepCmd n => Sys2Proof.Machine.execSweepCmd n s

end Sys2Proof.Machine
end

