-- ==== Sys2Proof/Machine/Step.lean ====
section
/-! DEFINITION. One step: the first act of the outside is taken from the script and the block does what it calls for. -/

namespace Sys2Proof.Machine

/-- One step of the machine. With nothing at the inputs the block waits: for a request when it is not BUSY (10_state R34); when
it is, it asserts chip-select if it has not yet and waits for the bus side, possibly for ever (20_memory R63; log 12). -/
def step (s : State) : Host.Outcome State Fault Refusal :=
  match s.inputs with
  | [] => .next (stall s)
  | .call p ws :: rest =>
    match decode p ws with
    | .ok i => exec i (s.consume rest)
    | .error r => .next (rejectCall r (s.consume rest))
  | .answer rx :: rest => .next (transfer rx (s.consume rest))
  | .answerBytes hi lo :: rest => .next (transfer (joinBytes hi lo) (s.consume rest))
  | .stall :: rest => .next (stall (s.consume rest))
  | .hwReset :: rest => .next (hardwareReset (s.consume rest))

/-- The state in which the next step reads the request word `w`: the owner presents it before any other act of the script. The
request port takes one 16-bit word (10_state R36); log 9, log 19. -/
def State.withFetchWord (s : State) (_nbits w : Nat) : State := s.presentWord (BitVec.ofNat 16 w)

end Sys2Proof.Machine
end

