-- ==== Sys2Proof/Machine/Operation.lean ====
section
/-! DEFINITION. The operation level (41_engine): each engine operation as one function from the state at acceptance and the words
`rx[0], rx[1], …` the bus returns to the state at completion, written from R134, R136, R137, R138 and not from the sequencer.
`exec` and `step` do not use it: 42_sequencer R172 says that the two levels agree, and that is a statement of this package. -/

namespace Sys2Proof.Machine

/-- The events of one transfer (20_memory R53). -/
def transferEvents (tx rx : Word) : List Event := [.csAssert, .xchg tx rx, .csDeassert, .settle]

/-- The events of transfers made one after another: `tx[k]` answered by `rx[k]` (41_engine R133). -/
def transfersEvents (txs rxs : List Word) : List Event := (List.zipWith transferEvents txs rxs).flatten

/-- Word `k` of the responses; every use is within the list's length. -/
def response (rxs : List Word) (k : Nat) : Word := rxs.getD k 0

/-- `Initialize` (R134): "the outcome does not depend on any prior state", nor on `rx[0]`. -/
def operationInit (a : SignedOp) (n : Count) (rxs : List Word) (s : State) : State :=
  { s with
    st := .idle
    op := .init, a := a, n := n
    lastCmd := resetWord
    inXfer := false
    trace := s.trace ++ [.csDeassert, .settle, .configure s.cfg.clockHz .msbFirst .mode3, .txnBegin] ++
      transfersEvents [resetWord] rxs ++ [.txnEnd] }

/-- `ReadChannel` (R136): the same command word twice; SLOT[0] from the second response, compared with the operand as given. -/
def operationReadChannel (ch : SignedOp) (n : Count) (rxs : List Word) (s : State) : State :=
  { s with
    st := .idle
    op := .readChannel, a := ch, n := n
    idx := 1
    len := 1
    slot := s.slot.set 0 (validate (response rxs 1) ch.toInt)
    lastCmd := manualCmd ch.toInt
    inXfer := false
    trace := s.trace ++ [.txnBegin] ++ transfersEvents [manualCmd ch.toInt, manualCmd ch.toInt] rxs ++ [.txnEnd] }

/-- The words READ_RANGE sends: the prime for `start`, then `(start + i + 1) mod 16` for `i` in 0..count-1 (R137). -/
def rangeWords (start : Int) (count : Nat) : List Word :=
  manualCmd start :: (List.range count).map fun (i : Nat) => manualCmd (mod16 (start + i + 1))

/-- SLOT after a read of `count` results: slot `i < count` holds `Validate(rx[i+1], e i)`, the others are kept (R137, R138). -/
def validatedSlots (count : Nat) (rxs : List Word) (e : Nat → Int) (slot : Vector Payload 32) : Vector Payload 32 :=
  Vector.ofFn fun i => if i.val < count then validate (response rxs (i.val + 1)) (e i.val) else slot[i.val]

/-- `ReadRange` (R137): each slot validated by itself against `start + i`, "NOT reduced mod 16". -/
def operationReadRange (start : SignedOp) (count : Count) (rxs : List Word) (s : State) : State :=
  { s with
    st := .idle
    op := .readRange, a := start, n := count
    idx := count
    len := count
    slot := validatedSlots count.toNat rxs (fun i => start.toInt + i) s.slot
    lastCmd := (rangeWords start.toInt count.toNat).getLastD 0
    inXfer := false
    trace := s.trace ++ [.txnBegin] ++ transfersEvents (rangeWords start.toInt count.toNat) rxs ++ [.txnEnd] }

/-- `ReadAll` (R138): the sweep command `size + 1` times; validation after collection; OK is true "only if all slots
validated". -/
def operationReadAll (size : Count) (a : SignedOp) (rxs : List Word) (s : State) : State :=
  { s with
    st := .idle
    op := .readAll, a := a, n := size
    idx := size
    len := size
    ok := (List.range size.toNat).all fun i => tagMatches (response rxs (i + 1)) i
    slot := validatedSlots size.toNat rxs (fun i => i) s.slot
    lastCmd := sweepCmd s.readAllScanMode size.toNat
    inXfer := false
    trace := s.trace ++ [.txnBegin] ++
      transfersEvents (List.replicate (size.toNat + 1) (sweepCmd s.readAllScanMode size.toNat)) rxs ++ [.txnEnd] }

/-- The operation level of a request (R134, R136, R137, R138). -/
def operation (op : Op) (a : SignedOp) (n : Count) (rxs : List Word) (s : State) : State :=
  match op with
  | .init => operationInit a n rxs s
  | .readChannel => operationReadChannel a n rxs s
  | .readRange => operationReadRange a n rxs s
  | .readAll => operationReadAll n a rxs s

end Sys2Proof.Machine
end

