-- ==== Sys2Proof/Safety.lean ====
section
/-! DEFINITION. The terms in which claims about a run are made: what the trace says of the lines and the words sent, the laws of
the trace, and the invariant of the machine. -/

namespace Sys2Proof.Machine

/-- The chip-select line as the trace leaves it: not driven by the block, low (asserted) or high (20_memory R50, 10_state R34). -/
inductive CsLine where
  | undriven | low | high
  deriving DecidableEq, Repr

/-- The line after one more event. -/
def csAfter (l : CsLine) : Event → CsLine
  | .csAssert => .low
  | .csDeassert => .high
  | .configure _ _ _ | .txnBegin | .txnEnd | .xchg _ _ | .settle => l

/-- The chip-select line after a trace. -/
def csLine (es : List Event) : CsLine := es.foldl csAfter .undriven

/-- The transaction bracket after one more event (R59). -/
def txnAfter (isOpen : Bool) : Event → Bool
  | .txnBegin => true
  | .txnEnd => false
  | .configure _ _ _ | .csAssert | .xchg _ _ | .csDeassert | .settle => isOpen

/-- Whether a transaction is open after a trace (R59). -/
def txnOpen (es : List Event) : Bool := es.foldl txnAfter false

/-- The bus configuration after one more event. -/
def configAfter (c : Option (Nat × BitOrder × BusMode)) : Event → Option (Nat × BitOrder × BusMode)
  | .configure hz order mode => some (hz, order, mode)
  | .txnBegin | .txnEnd | .csAssert | .xchg _ _ | .csDeassert | .settle => c

/-- What the bus was configured with last, if it was (R50, R65). -/
def configuredWith (es : List Event) : Option (Nat × BitOrder × BusMode) := es.foldl configAfter none

/-- The exchanges of a trace in order: word sent, word returned. -/
def exchanges : List Event → List (Word × Word)
  | [] => []
  | .xchg tx rx :: es => (tx, rx) :: exchanges es
  | .configure _ _ _ :: es | .txnBegin :: es | .txnEnd :: es | .csAssert :: es | .csDeassert :: es | .settle :: es => exchanges es

/-- The words sent, in order. -/
def sent (es : List Event) : List Word := (exchanges es).map Prod.fst

/-- The word sent last, if any. -/
def lastSent (es : List Event) : Option Word := (sent es).getLast?

/-- "SETTLE: always the event right after CS_DEASSERT" (20_memory R51, 70_reset R222). -/
def settleFollows : List Event → Bool
  | [] => true
  | .csDeassert :: es => (match es with | .settle :: _ => true | _ => false) && settleFollows es
  | .configure _ _ _ :: es | .txnBegin :: es | .txnEnd :: es | .csAssert :: es | .xchg _ _ :: es | .settle :: es =>
    settleFollows es

/-- Where a trace stands in the framing of transfers: nothing driven yet, line released and not settled, settled, asserted
with no exchange yet, or asserted and exchanged (20_memory R53, R54). -/
inductive Frame where
  | start | released | ready | asserted | exchanged
  deriving DecidableEq, Repr

/-- The framing of the bus, event by event: an assertion only after a settled release, one exchange in a frame, a SETTLE right
after each release (R53, R54, R222). A release of a frame without exchange is INIT's first act after a hardware reset abandoned
a transfer (70_reset R210). Everything else breaks the framing. -/
def frameStep (f : Frame) : Event → Option Frame
  | .csDeassert => if f = .released then none else some .released
  | .settle => if f = .released then some .ready else none
  | .csAssert => if f = .ready then some .asserted else none
  | .xchg _ _ => if f = .asserted then some .exchanged else none
  | .configure _ _ _ | .txnBegin | .txnEnd => if f = .ready then some .ready else none

/-- Where a whole trace stands, if its framing is unbroken. -/
def frameOf (es : List Event) : Option Frame := es.foldlM frameStep .start

/-- The manual request word of an integer channel by its value: `0x0806 | (clamp15(c) << 7)` (41_engine R131). -/
def manualValue (c : Int) : Nat := 0x0806 ||| ((clamp15 c).toNat <<< 7)

/-- The sweep request word by its value: `(m << 11) | (clamp15(n - 1) << 7) | 0x0006` (30_encoding R82, 41_engine R131). -/
def sweepValue (mode : BitVec 4) (n : Nat) : Nat := (mode.toNat <<< 11) ||| ((clamp15 ((n : Int) - 1)).toNat <<< 7) ||| 0x0006

/-- What a slot holds after a response was validated, by values: bits 11:0 of the response if bits 15:12, as an integer, equal
the expected integer, else 0 (41_engine R132). -/
def checkedValue (rx : Word) (e : Int) : Nat := if ((rx.toNat / 4096 : Nat) : Int) = e then rx.toNat % 4096 else 0

/-- The engine's words (30_encoding R82): the Reset command word, the manual request of a channel 0..15, the sweep request of a
channel 0..15. -/
def engineWord (mode : BitVec 4) (w : Word) : Prop :=
  w = 0x8040 ∨ (∃ c : Nat, c ≤ 15 ∧ w.toNat = 0x0806 ||| (c <<< 7)) ∨
    ∃ c : Nat, c ≤ 15 ∧ w.toNat = (mode.toNat <<< 11) ||| (c <<< 7) ||| 0x0006

/-- The acts of a bus side that answers each exchange at once with the words listed (20_memory R52). -/
def answers (rxs : List Word) : List Input := rxs.map .answer

/-- The acts of a bus side that keeps each exchange waiting for one step and then answers it (20_memory R63). -/
def lateAnswers (rxs : List Word) : List Input := (rxs.map fun rx => [.stall, .answer rx]).flatten

/-- The bus side gives no answer for the time being: the script is empty or its next act is no answer. -/
def noAnswerAtHand (ins : List Input) : Prop := ∀ i ∈ ins.head?, i.word? = none

/-- The far chip's contract as a premise (20_memory R67 a, b): the response that follows a request with CHANNEL_ID_ENABLE set is
tagged with the requested channel and carries its sample. -/
def followsPipeline (sample : Chan → Payload) : List (Word × Word) → Prop
  | [] => True
  | [_] => True
  | (tx, _) :: (tx', rx') :: es =>
    (readField fChannelIdEnable tx = 1 → rx' = buildResponse (readField fChannel tx) (sample (readField fChannel tx))) ∧
      followsPipeline sample ((tx', rx') :: es)

/-- Where the sequencer may stand with what in its latches and index (42_sequencer R162 to R167): INIT runs in INIT, read
operations in PRIMING and STEADY; IDX is 0 in PRIMING and below Total in STEADY (R166). -/
def seqInv (s : State) : Prop :=
  match s.st with
  | .uninit | .idle => True
  | .init => s.op = .init
  | .priming => s.op ≠ .init ∧ s.idx = 0
  | .steady => s.op ≠ .init ∧ s.idx.toNat < total s.op s.n

/-- How the lines stand in each position (20_memory R53, R54, R59): the framing is unbroken; between operations the line is
released and settled and the bracket closed; within one the bracket is open and the line is asserted exactly while an exchange
is outstanding. In UNINIT a hardware reset may have left a transfer abandoned (70_reset R210). -/
def linesInv (s : State) : Prop :=
  match s.st with
  | .uninit => s.inXfer = false ∧ frameOf s.trace ∈ [some .start, some .ready, some .asserted]
  | .idle => s.inXfer = false ∧ frameOf s.trace = some .ready ∧ txnOpen s.trace = false
  | .init | .priming | .steady =>
    frameOf s.trace = some (if s.inXfer then .asserted else .ready) ∧ txnOpen s.trace = true

/-- After INIT the bus is configured as CFG says, and LASTCMD is the word sent last (10_state R26, R29; 20_memory R65). -/
def sentInv (s : State) : Prop :=
  match s.st with
  | .uninit => True
  | .init => configuredWith s.trace = some (s.cfg.clockHz, s.cfg.bitOrder, s.cfg.mode)
  | .idle | .priming | .steady =>
    configuredWith s.trace = some (s.cfg.clockHz, s.cfg.bitOrder, s.cfg.mode) ∧ lastSent s.trace = some s.lastCmd

/-- Every word sent is one of the engine's (30_encoding R82). -/
def wordsInv (s : State) : Prop := ∀ w ∈ sent s.trace, engineWord s.readAllScanMode w

/-- The invariant of the machine: it holds at reset and every step keeps it. -/
def Inv (s : State) : Prop := seqInv s ∧ linesInv s ∧ sentInv s ∧ wordsInv s

end Sys2Proof.Machine
end

