-- ==== Sys2Proof/Certificates/Slice0/Obligations.lean ====
section
/-! DEFINITION. The statements for the provers. Each says what the block does in the spec's own numbers (bit positions, masks,
integers), so that a wrong definition of the model makes it false.

The fields `inputs`, `codecOut`, `free` and the mark `inXfer` of an open exchange are the model's own, not the spec's (log 6, log
11, log 2, log 12): what a statement says of them is the model's choice. So is the form of a codec call (log 9) and that `exec`
runs an accepted operation on the answers at hand (log 7). -/

open Sys2Proof Sys2Proof.Machine

/-! ## Encoding -/

/-- Decoding the words of any well-formed operation, at its port, gives it back (30_encoding R71, R72, R80, R81; the
form of a codec call is the model's, log 9). -/
def Obligations.DecodeReadsEncodedCalls : Prop :=
  ∀ i : Instr, i.wellFormed = true → decode i.port (encode i) = .ok i

/-- Every call has one encoding: words that decode to an operation are the words that encode it, so no bit is dropped
(the form of a codec call is the model's, log 9). -/
def Obligations.EncodeWritesDecodedCalls : Prop :=
  ∀ (p : Port) (ws : List Word) (i : Instr), decode p ws = .ok i → encode i = ws

/-- A request word is cut as 30_encoding R80 and R81 say, in integers; with bit 13 set it is rejected by name (R85). -/
def Obligations.RequestWordsAreCutByPosition : Prop :=
  ∀ q : Word,
    (q.toNat / 8192 % 2 = 1 → decode .request [q] = .error .reservedRequestBit) ∧
    (q.toNat / 8192 % 2 = 0 →
      decode .request [q] = .ok (
        if q.toNat / 16384 = 0 then .init ((q.toNat % 256 : Nat) - 256 * (q.toNat / 128 % 2 : Nat) : Int) (q.toNat / 256 % 32)
        else if q.toNat / 16384 = 1 then
          .readChannel ((q.toNat % 256 : Nat) - 256 * (q.toNat / 128 % 2 : Nat) : Int) (q.toNat / 256 % 32)
        else if q.toNat / 16384 = 2 then
          .readRange ((q.toNat % 256 : Nat) - 256 * (q.toNat / 128 % 2 : Nat) : Int) (q.toNat / 256 % 32)
        else .readAll (q.toNat / 256 % 32) ((q.toNat % 256 : Nat) - 256 * (q.toNat / 128 % 2 : Nat) : Int)))

/-- Words written out from the spec's encodings decode to the operations they stand for (95_test_vectors 2.1 to 2.8). -/
def Obligations.SampleWordsDecode : Prop :=
  decode .request [0b01_0_00000_00000111] = .ok (.readChannel 7 0) ∧
  decode .request [0b10_0_00100_11111101] = .ok (.readRange (-3) 4) ∧
  decode .request [0b11_0_10000_00000000] = .ok (.readAll 16 0) ∧
  decode .request [0b00_0_11111_11111111] = .ok (.init (-1) 31) ∧
  decode .request [0b01_1_00000_00000111] = .error .reservedRequestBit ∧
  decode .build [0b0_1000_0000_01_10_0_1_0] = .ok (.build 8 1 2 false true false) ∧
  decode .withChannel [0x0806, 0xFF] = .ok (.withChannel 0x0806 (-1)) ∧
  decode .buildResponse [0b0111_101010111100] = .ok (.buildResponse 7 0xABC)

/-! ## The step and the request port -/

/-- A step at a call that decodes runs the decoded operation, on the state with that call taken from the script and the counter
of free values advanced (log 2, log 6). -/
def Obligations.StepRunsDecodedCall : Prop :=
  ∀ (s : State) (p : Port) (ws : List Word) (rest : List Input) (i : Instr),
    s.inputs = .call p ws :: rest → decode p ws = .ok i → step s = exec i { s with inputs := rest, free := s.free + 1 }

/-- Every step answers a next state: the block raises nothing and never stops (60_exceptions R180); words that are no call change
nothing (log 10). -/
def Obligations.StepNeverStops : Prop := ∀ s : State, ∃ t, step s = .next t

/-- `req_ready` follows the table of 42_sequencer R161, and a request that is not accepted changes nothing and emits nothing
(60_exceptions R186): only the script moves on (the model's choice, log 8). -/
def Obligations.ReadinessTableAndRefusals : Prop :=
  ∀ (s : State) (q : Word),
    (s.reqReady q = true ↔
      q.toNat / 8192 % 2 = 0 ∧ (s.st = .idle ∨ (s.st = .uninit ∧ q.toNat / 16384 = 0))) ∧
    (s.reqReady q = false → ∀ rest : List Input, s.inputs = .call .request [q] :: rest →
      step s = .next { s with inputs := rest, free := s.free + 1 })

/-- The accept step of a read operation when the bus side gives no answer yet (42_sequencer R162): the operands latched, IDX 0,
the bracket opened, PRIMING, and no transfer. (SLOT, OK and LEN are not spoken of while BUSY: R171.) -/
def Obligations.AcceptedReadWaitsInPriming : Prop :=
  ∀ (s : State) (i : Instr) (op : Op) (a : SignedOp) (n : Count),
    s.st = .idle → noAnswerAtHand s.inputs → op ≠ .init → i = requestInstr op a n →
    ∃ t, exec i s = .next t ∧ t.st = .priming ∧ t.op = op ∧ t.a = a ∧ t.n = n ∧ t.idx = 0 ∧ t.lastCmd = s.lastCmd ∧
      t.trace = s.trace ++ [.txnBegin] ∧ t.inputs = s.inputs ∧ t.cfg = s.cfg ∧ t.readAllScanMode = s.readAllScanMode ∧
      t.codecOut = s.codecOut

/-- The accept step of INIT when the bus side gives no answer yet (42_sequencer R163). That `exec` waits
exactly when no answer is at hand is the model's choice (log 7). -/
def Obligations.AcceptedInitConfiguresBus : Prop :=
  ∀ (s : State) (a : SignedOp) (n : Count), s.st = .uninit ∨ s.st = .idle → noAnswerAtHand s.inputs →
    ∃ t, exec (.init a.toInt n.toNat) s = .next t ∧ t.st = .init ∧ t.op = .init ∧ t.a = a ∧ t.n = n ∧ t.lastCmd = s.lastCmd ∧
      t.trace = s.trace ++ [.csDeassert, .settle, .configure s.cfg.clockHz s.cfg.bitOrder s.cfg.mode, .txnBegin] ∧
      t.inputs = s.inputs ∧ t.cfg = s.cfg ∧ t.readAllScanMode = s.readAllScanMode ∧ t.codecOut = s.codecOut

/-! ## The engine's operations, complete -/

/-- INIT from UNINIT or IDLE, its one exchange answered by any word: nine events, LASTCMD 0x8040, IDLE; SLOT, LEN, OK and IDX
unchanged (41_engine R134). `inXfer` is the model's mark of an open exchange (log 12). -/
def Obligations.InitCompletes : Prop :=
  ∀ (s : State) (a : Int) (n : Nat) (rx : Word) (rest : List Input),
    s.st = .uninit ∨ s.st = .idle → s.inputs = .answer rx :: rest →
    exec (.init a n) s = .next { s with
      st := .idle
      op := .init
      a := BitVec.ofInt 8 a
      n := BitVec.ofNat 5 n
      lastCmd := 0x8040
      inXfer := false
      inputs := rest
      trace := s.trace ++ [.csDeassert, .settle, .configure s.cfg.clockHz .msbFirst .mode3, .txnBegin, .csAssert,
        .xchg 0x8040 rx, .csDeassert, .settle, .txnEnd] }

/-- READ_CHANNEL from IDLE with both exchanges answered: the same manual request twice, SLOT[0] from the second response only,
LEN 1, every other slot and OK unchanged (41_engine R136). -/
def Obligations.ReadChannelCompletes : Prop :=
  ∀ (s : State) (ch : Int) (n : Nat) (r0 r1 : Word) (rest : List Input),
    s.st = .idle → -128 ≤ ch → ch ≤ 127 → s.inputs = .answer r0 :: .answer r1 :: rest →
    exec (.readChannel ch n) s = .next { s with
      st := .idle
      op := .readChannel
      a := BitVec.ofInt 8 ch
      n := BitVec.ofNat 5 n
      idx := 1
      len := 1
      slot := s.slot.set 0 (BitVec.ofNat 12 (checkedValue r1 ch))
      lastCmd := BitVec.ofNat 16 (manualValue ch)
      inXfer := false
      inputs := rest
      trace := s.trace ++ [.txnBegin,
        .csAssert, .xchg (BitVec.ofNat 16 (manualValue ch)) r0, .csDeassert, .settle,
        .csAssert, .xchg (BitVec.ofNat 16 (manualValue ch)) r1, .csDeassert, .settle, .txnEnd] }

/-- READ_RANGE from IDLE with all `count + 1` exchanges answered: the prime for `start`, then the requests for
`(start + i + 1) mod 16`; slot `i` holds the payload of response `i + 1` if its tag equals `start + i`, not reduced, else 0;
slots at `count` and above and OK are unchanged (41_engine R137). -/
def Obligations.ReadRangeFillsItsSlots : Prop :=
  ∀ (s : State) (start : Int) (count : Nat) (r0 : Word) (rxs : List Word) (rest : List Input),
    s.st = .idle → -128 ≤ start → start ≤ 127 → count < 32 → rxs.length = count →
    s.inputs = answers (r0 :: rxs) ++ rest →
    ∃ (v : Vector Payload 32) (last : Word),
      exec (.readRange start count) s = .next { s with
        st := .idle
        op := .readRange
        a := BitVec.ofInt 8 start
        n := BitVec.ofNat 5 count
        idx := BitVec.ofNat 5 count
        len := BitVec.ofNat 5 count
        slot := v
        lastCmd := last
        inXfer := false
        inputs := rest
        trace := s.trace ++ [.txnBegin] ++
          transfersEvents (BitVec.ofNat 16 (manualValue start) ::
            (List.range count).map fun (i : Nat) => BitVec.ofNat 16 (manualValue ((start + i + 1) % 16))) (r0 :: rxs) ++ [.txnEnd] } ∧
      (∀ i : Fin 32, v[i].toNat = if i.val < count then checkedValue (rxs.getD i.val 0) (start + i.val) else s.slot[i].toNat) ∧
      last = BitVec.ofNat 16 (if count = 0 then manualValue start else manualValue ((start + count) % 16))

/-- READ_ALL from IDLE with all `size + 1` exchanges answered: the sweep request every time; slot `i` holds the payload of
response `i + 1` if its tag equals `i`, else 0; OK is 1 exactly when all tags matched; slots at `size` and above are unchanged;
with the operand left out the size is 16 (41_engine R138). -/
def Obligations.ReadAllFillsItsSlotsAndFlag : Prop :=
  Instr.readAllDefault = .readAll 16 0 ∧
  ∀ (s : State) (size : Nat) (a : Int) (r0 : Word) (rxs : List Word) (rest : List Input),
    s.st = .idle → size < 32 → rxs.length = size → s.inputs = answers (r0 :: rxs) ++ rest →
    ∃ (v : Vector Payload 32) (good : Bool),
      exec (.readAll size a) s = .next { s with
        st := .idle
        op := .readAll
        a := BitVec.ofInt 8 a
        n := BitVec.ofNat 5 size
        idx := BitVec.ofNat 5 size
        len := BitVec.ofNat 5 size
        ok := good
        slot := v
        lastCmd := BitVec.ofNat 16 (sweepValue s.readAllScanMode size)
        inXfer := false
        inputs := rest
        trace := s.trace ++ [.txnBegin] ++
          transfersEvents (List.replicate (size + 1) (BitVec.ofNat 16 (sweepValue s.readAllScanMode size))) (r0 :: rxs) ++
          [.txnEnd] } ∧
      (∀ i : Fin 32, v[i].toNat = if i.val < size then checkedValue (rxs.getD i.val 0) i.val else s.slot[i].toNat) ∧
      (good = true ↔ ∀ i, i < size → (rxs.getD i 0).toNat / 4096 = i)

/-- The two levels agree (42_sequencer R172): an operation that runs on the answers at hand ends as the operation level of
41_engine says, for every operation, every state that accepts it and every list of responses. -/
def Obligations.OperationAndTransferLevelsAgree : Prop :=
  ∀ (s : State) (op : Op) (a : SignedOp) (n : Count) (rxs : List Word) (rest : List Input),
    s.st = .idle ∨ (s.st = .uninit ∧ op = .init) → rxs.length = total op n + 1 → s.inputs = answers rxs ++ rest →
    exec (requestInstr op a n) s = .next { operation op a n rxs s with inputs := rest }

/-- The same for a run of single steps (42_sequencer R172): the accept step and then one transfer a step, each exchange kept
waiting for a step first, ends as the operation level says; the counter of free values has advanced once a step. The
waiting step, the script and the counter are the model's choice (log 12, log 6, log 2). -/
def Obligations.StepByStepRunAgrees : Prop :=
  ∀ (s : State) (op : Op) (a : SignedOp) (n : Count) (rxs : List Word) (rest : List Input),
    s.st = .idle ∨ (s.st = .uninit ∧ op = .init) → rxs.length = total op n + 1 →
    s.inputs = .call .request (encode (requestInstr op a n)) :: (lateAnswers rxs ++ rest) →
    Sys2Proof.core.run (1 + 2 * rxs.length) s =
      .next { operation op a n rxs s with inputs := rest, free := s.free + (1 + 2 * rxs.length) }

/-- An exchange that is never answered (20_memory R63): however long the run, the engine stays in its position, BUSY, with
CS_ASSERT emitted and no CS_DEASSERT after it; the requests presented meanwhile are not accepted. The mark `inXfer` of the open
exchange is the model's (log 12). -/
def Obligations.UnansweredExchangeBlocksForEver : Prop :=
  ∀ (k : Nat) (s : State), s.busy = true → s.inXfer = true →
    (∀ i ∈ s.inputs, i.word? = none ∧ i ≠ .hwReset) →
    ∃ t, Sys2Proof.core.run k s = .next t ∧ t.st = s.st ∧ t.busy = true ∧ t.inXfer = true ∧ t.trace = s.trace ∧
      t.lastCmd = s.lastCmd ∧ t.op = s.op ∧ t.a = s.a ∧ t.n = s.n ∧ t.idx = s.idx

/-- An exchange begun and not answered emits CS_ASSERT and nothing more (20_memory R63), when the bus side keeps it waiting and
when nothing at all comes from outside (that it is a step of its own is the model's choice, log 12). -/
def Obligations.StallAssertsChipSelect : Prop :=
  ∀ s : State, s.busy = true → s.inXfer = false →
    (∀ rest : List Input, s.inputs = .stall :: rest →
      step s = .next { s with inXfer := true, trace := s.trace ++ [.csAssert], inputs := rest, free := s.free + 1 }) ∧
    (s.inputs = [] → step s = .next { s with inXfer := true, trace := s.trace ++ [.csAssert] })

/-- One answered exchange moves STATE along the arrows of 42_sequencer R168 that a transfer takes (R164 to R166), and
LASTCMD becomes the word sent (10_state R26). With no exchange outstanding an answer has no effect (the model's choice, log 14). -/
def Obligations.TransferFollowsStateArrows : Prop :=
  ∀ (s : State) (rx : Word) (rest : List Input), s.inputs = .answer rx :: rest →
    ∃ t, step s = .next t ∧ t.inputs = rest ∧ t.op = s.op ∧ t.a = s.a ∧ t.n = s.n ∧
      (s.st = .uninit ∨ s.st = .idle → t = { s with inputs := rest, free := s.free + 1 }) ∧
      (s.st = .init → t.st = .idle ∧ t.lastCmd = 0x8040) ∧
      (s.st = .priming → s.op ≠ .init → (s.op = .readChannel ∨ s.n.toNat ≠ 0) → t.st = .steady) ∧
      (s.st = .priming → (s.op = .readRange ∨ s.op = .readAll) → s.n.toNat = 0 → t.st = .idle ∧ t.len = 0) ∧
      (s.st = .priming → (s.op = .readChannel ∨ s.op = .readRange) → t.lastCmd.toNat = manualValue s.a.toInt) ∧
      (s.st = .priming → s.op = .readAll → t.lastCmd.toNat = sweepValue s.readAllScanMode s.n.toNat) ∧
      (s.st = .steady → s.op = .readChannel → s.idx = 0 → t.st = .idle ∧ t.idx = 1 ∧ t.lastCmd.toNat = manualValue s.a.toInt) ∧
      (s.st = .steady → s.op = .readRange → s.idx.toNat < s.n.toNat → t.idx.toNat = s.idx.toNat + 1 ∧
        t.st = (if s.idx.toNat + 1 = s.n.toNat then .idle else .steady) ∧
        t.lastCmd.toNat = manualValue ((s.a.toInt + s.idx.toNat + 1) % 16)) ∧
      (s.st = .steady → s.op = .readAll → s.idx.toNat < s.n.toNat → t.idx.toNat = s.idx.toNat + 1 ∧
        t.st = (if s.idx.toNat + 1 = s.n.toNat then .idle else .steady) ∧
        t.lastCmd.toNat = sweepValue s.readAllScanMode s.n.toNat)

/-! ## Consequences for results -/

/-- A channel operand outside 0..15 always reads 0, whatever the bus returns (41_engine R136, 60_exceptions R184). -/
def Obligations.OutOfRangeChannelReadsZero : Prop :=
  ∀ (s : State) (ch : Int) (n : Nat) (r0 r1 : Word) (rest : List Input),
    s.st = .idle → fitsSigned ch = true → (ch < 0 ∨ 15 < ch) → s.inputs = .answer r0 :: .answer r1 :: rest →
    ∃ t, exec (.readChannel ch n) s = .next t ∧ t.st = .idle ∧ t.slotAt 0 = 0

/-- Slots of a range whose channel `start + i` is outside 0..15 are 0 whatever the bus returns (41_engine R140). -/
def Obligations.RangeSlotsOutsideChannelsAreZero : Prop :=
  ∀ (s : State) (start : SignedOp) (count : Count) (rxs : List Word) (rest : List Input),
    s.st = .idle → rxs.length = count.toNat + 1 → s.inputs = answers rxs ++ rest →
    ∃ t, exec (.readRange start.toInt count.toNat) s = .next t ∧ t.st = .idle ∧
      ∀ i : Count, i.toNat < count.toNat → (start.toInt + i.toNat < 0 ∨ 15 < start.toInt + i.toNat) → t.slotAt i = 0

/-- A sweep of more than 16 channels always ends with OK = 0 and zeros in slots 16 and above (41_engine R138). -/
def Obligations.LongSweepNeverSucceeds : Prop :=
  ∀ (s : State) (size : Count) (a : Int) (rxs : List Word) (rest : List Input),
    s.st = .idle → 16 < size.toNat → rxs.length = size.toNat + 1 → s.inputs = answers rxs ++ rest →
    ∃ t, exec (.readAll size.toNat a) s = .next t ∧ t.st = .idle ∧ t.ok = false ∧
      ∀ i : Count, 16 ≤ i.toNat → i.toNat < size.toNat → t.slotAt i = 0

/-- OK = 1 after a sweep proves every slot a payload whose tag was its index, zeros included (70_reset R224, 60_exceptions R182). -/
def Obligations.SweepFlagVouchesForSlots : Prop :=
  ∀ (s t : State) (size : Count) (a : Int) (rxs : List Word) (rest : List Input),
    s.st = .idle → rxs.length = size.toNat + 1 → s.inputs = answers rxs ++ rest →
    exec (.readAll size.toNat a) s = .next t → t.ok = true →
    size.toNat ≤ 16 ∧ ∀ i : Count, i.toNat < size.toNat →
      (rxs.getD (i.toNat + 1) 0).toNat = i.toNat * 4096 + (t.slotAt i).toNat

/-- For the same responses READ_ALL size and READ_RANGE 0, size write the same slots and the same LEN; READ_RANGE leaves OK
alone (41_engine R141). -/
def Obligations.SweepAndRangeFromZeroAgree : Prop :=
  ∀ (s : State) (size : Count) (a : Int) (rxs : List Word) (rest : List Input),
    s.st = .idle → rxs.length = size.toNat + 1 → s.inputs = answers rxs ++ rest →
    ∃ t u, exec (.readAll size.toNat a) s = .next t ∧ exec (.readRange 0 size.toNat) s = .next u ∧
      t.st = .idle ∧ u.st = .idle ∧ t.slot = u.slot ∧ t.len = u.len ∧ u.ok = s.ok

/-- What the bus returns changes results only (60_exceptions R181, 42_sequencer R169): with other responses, as many, an operation
sends the same words and ends in the same position with the same LEN, LASTCMD and latches; OK differs only in READ_ALL. -/
def Obligations.ResponsesChangeOnlyResults : Prop :=
  ∀ (s : State) (op : Op) (a : SignedOp) (n : Count) (rxs rxs' : List Word) (rest : List Input),
    s.st = .idle → rxs.length = total op n + 1 → rxs'.length = rxs.length →
    ∃ t t' es es', exec (requestInstr op a n) { s with inputs := answers rxs ++ rest } = .next t ∧
      exec (requestInstr op a n) { s with inputs := answers rxs' ++ rest } = .next t' ∧
      t.trace = s.trace ++ es ∧ t'.trace = s.trace ++ es' ∧ sent es = sent es' ∧ (sent es).length = rxs.length ∧
      t.st = .idle ∧ t'.st = .idle ∧ t.len = t'.len ∧ t.idx = t'.idx ∧ t.lastCmd = t'.lastCmd ∧
      t.op = t'.op ∧ t.a = t'.a ∧ t.n = t'.n ∧ t.inputs = rest ∧ t'.inputs = rest ∧ (op ≠ .readAll → t.ok = t'.ok)

/-- The engine gets the one-transfer latency right (00_scope R3): if the far chip keeps its contract on the transfers of a range
read (20_memory R67 a, b), every slot of a range within 0..15 holds the sample of its channel. -/
def Obligations.PipelinedRangeReadsTheSamples : Prop :=
  ∀ (s : State) (start : Int) (count : Nat) (rxs : List Word) (rest : List Input) (sample : Chan → Payload),
    s.st = .idle → 0 ≤ start → start + count ≤ 16 → rxs.length = count + 1 → s.inputs = answers rxs ++ rest →
    ∃ t es, exec (.readRange start count) s = .next t ∧ t.st = .idle ∧ t.trace = s.trace ++ es ∧
      (followsPipeline sample (exchanges es) →
        ∀ i : Count, i.toNat < count → t.slotAt i = sample (BitVec.ofInt 4 (start + i.toNat)))

/-! ## Invariants of every step -/

/-- The invariant holds right after reset. -/
def Obligations.InvariantHoldsAtReset : Prop := Inv State.reset

/-- Every step keeps the invariant: the sequencer's latches and index (42_sequencer R162 to R167), the framing of the bus and
the bracket (20_memory R53, R54, R59), the configuration and LASTCMD (R65, 10_state R26), and that only the engine's words are
sent (30_encoding R82). The mark of an open exchange is the model's (log 12), and so is that the trace goes on over a hardware
reset (log 13). -/
def Obligations.StepKeepsInvariant : Prop := ∀ s t : State, Inv s → step s = .next t → Inv t

/-- CFG and READALL_SCAN_MODE are never written (10_state R29). -/
def Obligations.ParametersAreNeverWritten : Prop :=
  ∀ s t : State, step s = .next t → t.cfg = s.cfg ∧ t.readAllScanMode = s.readAllScanMode

/-- The trace only grows (20_memory R51). That it goes on over a hardware reset, which emits nothing (70_reset R210), is the
model's choice (log 13). -/
def Obligations.TraceOnlyGrows : Prop := ∀ s t : State, step s = .next t → ∃ es, t.trace = s.trace ++ es

/-- In a trace with unbroken framing every CS_DEASSERT is followed at once by SETTLE (70_reset R222), if the trace does not end
inside a release; and so in every state that meets the invariant. -/
def Obligations.SettleFollowsEveryRelease : Prop := ∀ s : State, Inv s → settleFollows s.trace = true

/-- Between operations chip-select is high, and during one it is low exactly while an exchange is outstanding (20_memory R54). -/
def Obligations.ChipSelectLineFollowsPosition : Prop :=
  ∀ s : State, Inv s → (s.st = .idle → csLine s.trace = .high) ∧
    (s.busy = true → csLine s.trace = (if s.inXfer then .low else .high))

/-- INIT is the only operation that calls `configure`, and the only one that sends a word with CONFIG = 1 or with
CHANNEL_ID_ENABLE = 0 (41_engine R135). -/
def Obligations.OnlyInitConfigures : Prop :=
  ∀ (i : Instr) (s t : State), (∀ a n, i ≠ .init a n) → exec i s = .next t →
    ∃ es, t.trace = s.trace ++ es ∧ (∀ hz order mode, Event.configure hz order mode ∉ es) ∧
      ∀ w ∈ sent es, w.getLsbD 15 = false ∧ w.getLsbD 2 = true

/-! ## Reset, status and the owner's ports -/

/-- After hardware reset the block is in UNINIT, not BUSY, with nothing on the bus; STATUS shows STATE 0, BUSY 0 and zeros in
15:10 (10_state R34, 95_test_vectors 2.11). That nothing stands at the inputs and the block then waits is the model's (log 6,
log 19). -/
def Obligations.ResetLeavesUninit : Prop :=
  State.reset.st = .uninit ∧ State.reset.busy = false ∧ State.reset.trace = [] ∧ State.reset.inputs = [] ∧
    State.reset.statusWord.extractLsb' 0 4 = 0 ∧ State.reset.statusWord.extractLsb' 10 6 = 0 ∧
    step State.reset = .next State.reset

/-- A hardware reset abandons whatever runs, emits nothing and keeps the parameters; the next INIT releases the line first
(70_reset R210; that the trace and the script go on is the model's choice, log 13). -/
def Obligations.HardwareResetAbandons : Prop :=
  ∀ (s : State) (rx : Word) (rest : List Input), s.inputs = .hwReset :: .call .request [0x0000] :: .answer rx :: rest →
    ∃ t u, step s = .next t ∧ step t = .next u ∧
      t.st = .uninit ∧ t.busy = false ∧ t.trace = s.trace ∧ t.cfg = s.cfg ∧ t.readAllScanMode = s.readAllScanMode ∧
      u.st = .idle ∧ u.inputs = rest ∧
      u.trace = s.trace ++ [.csDeassert, .settle, .configure s.cfg.clockHz s.cfg.bitOrder s.cfg.mode, .txnBegin, .csAssert,
        .xchg 0x8040 rx, .csDeassert, .settle, .txnEnd]

/-- STATUS (10_state R30): STATE's code in 2:0 (R22), BUSY in 3, OK in 4, LEN in 9:5, zeros in 15:10; OK and LEN only when not
BUSY. -/
def Obligations.StatusShowsItsFields : Prop :=
  ∀ s : State,
    s.statusWord.toNat % 8 =
      (match s.st with | .uninit => 0 | .init => 1 | .idle => 2 | .priming => 3 | .steady => 4) ∧
    (s.statusWord.toNat / 8 % 2 = 1 ↔ s.st = .init ∨ s.st = .priming ∨ s.st = .steady) ∧
    s.statusWord.toNat / 1024 = 0 ∧
    (s.busy = false → s.statusWord.toNat / 16 % 2 = s.ok.toNat ∧ s.statusWord.toNat / 32 % 32 = s.len.toNat) ∧
    s.statusPort = (s.statusWord, s.lastCmd)

/-- The slot port answers the slot zero-extended to 16 bits when not BUSY, for every index (10_state R37). -/
def Obligations.SlotPortZeroExtends : Prop :=
  ∀ (s : State) (i : Count), s.busy = false → (s.slotData i).toNat = (s.slot[i.toNat]'i.isLt).toNat

/-! ## The bus word -/

/-- Bit 15 crosses the wire first and bit 0 last, and a word is read back from its bits in that order (20_memory R55). -/
def Obligations.WireOrderIsMsbFirst : Prop :=
  ∀ w : Word, (wireBits w).length = 16 ∧ (∀ k, k < 16 → (wireBits w)[k]? = some (w.getLsbD (15 - k))) ∧
    ofWireBits (wireBits w) = w

/-- A response received as two bytes is `(high << 8) | low` with the first byte high, and the bytes sent are 15:8 and then 7:0
(20_memory R56; the byte form of an answer is the model's, log 20). -/
def Obligations.TwoByteExchangeIsHighFirst : Prop :=
  (∀ (s : State) (hi lo : BitVec 8) (rest : List Input), s.inputs = .answerBytes hi lo :: rest →
    step s = step { s with inputs := .answer (BitVec.ofNat 16 (hi.toNat * 256 + lo.toNat)) :: rest }) ∧
  ∀ w : Word, (sentBytes w).1.toNat = w.toNat / 256 ∧ (sentBytes w).2.toNat = w.toNat % 256

/-! ## The codec -/

/-- BUILD in any state answers the fields at their places, CHANNEL and bit 0 zero, and changes nothing else; an operand left out
takes its default (40_codec R101). -/
def Obligations.BuildPacksItsFields : Prop :=
  (∀ (scan : BitVec 4) (reset pm : BitVec 2) (chid swc cfg : Bool) (s : State),
    exec (.build scan reset pm chid swc cfg) s = .next { s with codecOut := some (.value ⟨.command, BitVec.ofNat 16
      ((cfg.toNat <<< 15) ||| (scan.toNat <<< 11) ||| (0 <<< 7) ||| (reset.toNat <<< 5) ||| (pm.toNat <<< 3) |||
        (chid.toNat <<< 2) ||| (swc.toNat <<< 1) ||| 0)⟩) }) ∧
  (∀ o : BuildOperands, o.expand =
    .build (o.scan.getD 1) (o.reset.getD 0) (o.pm.getD 0) (o.chid.getD true) (o.swc.getD true) (o.cfg.getD false)) ∧
  buildWord ScanMode.customRangeExternal.code ResetScope.fifoOnly.code PowerMode.autoStandby.code false true false = 0x4032

/-- DEFAULT_WORD is 0x0806 and RESET_WORD is 0x8040 (40_codec R102, R103); with another code for ALL only bits 6:5 of the Reset
word change. -/
def Obligations.FixedWordsHaveTheirValues : Prop :=
  (∀ s : State, exec .defaultWord s = .next { s with codecOut := some (.value ⟨.command, 0x0806⟩) }) ∧
  (∀ s : State, exec .resetWord s = .next { s with codecOut := some (.value ⟨.command, 0x8040⟩) }) ∧
  (BuildOperands.expand {} = .build 1 0 0 true true false ∧ buildWord 1 0 0 true true false = 0x0806) ∧
  withChannel 0x0806 7 = 0x0B86 ∧
  buildWord ScanMode.none.code ResetScope.all.code PowerMode.normal.code false false true = 0x8040 ∧
  ∀ (all : BitVec 2) (k : Nat), k ≠ 5 → k ≠ 6 →
    (buildWord ScanMode.none.code all PowerMode.normal.code false false true).getLsbD k = (0x8040 : Word).getLsbD k

/-- WITH_CHANNEL in any state replaces bits 10:7 by the clamp of any integer and passes all other bits; a channel outside 0..15
acts as the nearest boundary (40_codec R104, R118). -/
def Obligations.WithChannelClamps : Prop :=
  (∀ (w : Word) (ch : Int) (s : State),
    exec (.withChannel w ch) s = .next { s with codecOut := some (.value ⟨.command,
      (w &&& ~~~0x0780#16) ||| BitVec.ofNat 16 ((if ch < 0 then 0 else if 15 < ch then 15 else ch).toNat <<< 7)⟩) }) ∧
  (∀ (w : Word) (ch : Int), withChannel w ch = withChannel w (clamp15 ch) ∧
    ((readField fChannel (withChannel w ch)).toNat : Int) = clamp15 ch ∧ withChannel (withChannel w ch) 0 = withChannel w 0) ∧
  (withChannel 0x0806 7 = 0x0B86 ∧ withChannel 0x0806 20 = 0x0F86 ∧ withChannel 0x0806 (-1) = 0x0806 ∧
    withChannel 0xFFFF 0 = 0xF87F)

/-- The six setters in any state clear their field's bits and OR in the new value (40_codec R105 to R110). -/
def Obligations.SettersClearThenOr : Prop :=
  ∀ (w : Word) (b : Bool) (m : BitVec 4) (c : BitVec 2) (s : State),
    exec (.setConfig w b) s =
      .next { s with codecOut := some (.value ⟨.command, (w &&& ~~~0x8000#16) ||| BitVec.ofNat 16 (b.toNat <<< 15)⟩) } ∧
    exec (.setScanMode w m) s =
      .next { s with codecOut := some (.value ⟨.command, (w &&& ~~~0x7800#16) ||| BitVec.ofNat 16 (m.toNat <<< 11)⟩) } ∧
    exec (.setReset w c) s =
      .next { s with codecOut := some (.value ⟨.command, (w &&& ~~~0x0060#16) ||| BitVec.ofNat 16 (c.toNat <<< 5)⟩) } ∧
    exec (.setPowerMode w c) s =
      .next { s with codecOut := some (.value ⟨.command, (w &&& ~~~0x0018#16) ||| BitVec.ofNat 16 (c.toNat <<< 3)⟩) } ∧
    exec (.setChannelIdEnable w b) s =
      .next { s with codecOut := some (.value ⟨.command, (w &&& ~~~0x0004#16) ||| BitVec.ofNat 16 (b.toNat <<< 2)⟩) } ∧
    exec (.setSoftwareConvert w b) s =
      .next { s with codecOut := some (.value ⟨.command, (w &&& ~~~0x0002#16) ||| BitVec.ofNat 16 (b.toNat <<< 1)⟩) }

/-- The law common to the setters (40_codec R111): for each of the seven fields, no bit outside the field changes and the field
takes the value; setters of different fields commute; the second of two on one field stays; the value already there changes
nothing; bit 0 is never touched. -/
def Obligations.SettersAreIndependent : Prop :=
  ∀ f ∈ [fConfig, fScanMode, fChannel, fReset, fPowerMode, fChannelIdEnable, fSoftwareConvert], ∀ (w : Word) (v : BitVec f.width),
    setField f w v = (w &&& ~~~f.mask) ||| ((v.setWidth 16 <<< f.lo) &&& f.mask) ∧
    (∀ k, ¬ (f.lo ≤ k ∧ k < f.lo + f.width) → (setField f w v).getLsbD k = w.getLsbD k) ∧
    readField f (setField f w v) = v ∧
    (∀ v', setField f (setField f w v) v' = setField f w v') ∧
    setField f w (readField f w) = w ∧
    (setField f w v).getLsbD 0 = w.getLsbD 0 ∧
    ∀ g ∈ [fConfig, fScanMode, fChannel, fReset, fPowerMode, fChannelIdEnable, fSoftwareConvert], g ≠ f →
      ∀ u : BitVec g.width, setField g (setField f w v) u = setField f (setField g w u) v

/-- RESPONDING_CHANNEL, PAYLOAD and BUILD_RESPONSE in any state (40_codec R112, R113, R114), and their round trips (R117). -/
def Obligations.ResponseFieldsRoundTrip : Prop :=
  (∀ (w : Word) (s : State), ∃ c : Chan, c.toNat = w.toNat / 4096 ∧
    exec (.respondingChannel w) s = .next { s with codecOut := some (.tag c) }) ∧
  (∀ (w : Word) (s : State), ∃ p : Payload, p.toNat = w.toNat % 4096 ∧
    exec (.payload w) s = .next { s with codecOut := some (.data p) }) ∧
  (∀ (ch : Chan) (p : Payload) (s : State), exec (.buildResponse ch p) s =
    .next { s with codecOut := some (.value ⟨.response, BitVec.ofNat 16 (ch.toNat * 4096 + p.toNat)⟩) }) ∧
  (∀ (ch : Chan) (p : Payload), tagOf (buildResponse ch p) = ch ∧ payloadOf (buildResponse ch p) = p) ∧
  ∀ w : Word, buildResponse (tagOf w) (payloadOf w) = w

/-- TO_RAW and FROM_RAW are the identity on 16 bits, for values of both kinds, and reject nothing (40_codec R115). -/
def Obligations.RawConversionIsIdentity : Prop :=
  (∀ (v : WordValue) (s : State), exec (.toRaw v) s = .next { s with codecOut := some (.raw v.bits) }) ∧
  (∀ (k : WordKind) (x : Word) (s : State), exec (.fromRaw k x) s = .next { s with codecOut := some (.value ⟨k, x⟩) }) ∧
  (∀ (k : WordKind) (x : Word), toRaw (fromRaw k x) = x) ∧ (∀ v : WordValue, fromRaw v.kind (toRaw v) = v) ∧
  toRaw ⟨.command, resetWord⟩ = 0x8040

/-- Command round trip (40_codec R119): every field of BUILD's word reads back, and BUILD is the default word with the six
setters applied in any order. -/
def Obligations.CommandFieldsRoundTrip : Prop :=
  ∀ (scan : BitVec 4) (reset pm : BitVec 2) (chid swc cfg : Bool),
    readField fScanMode (buildWord scan reset pm chid swc cfg) = scan ∧
    readField fReset (buildWord scan reset pm chid swc cfg) = reset ∧
    readField fPowerMode (buildWord scan reset pm chid swc cfg) = pm ∧
    readField fChannelIdEnable (buildWord scan reset pm chid swc cfg) = BitVec.ofBool chid ∧
    readField fSoftwareConvert (buildWord scan reset pm chid swc cfg) = BitVec.ofBool swc ∧
    readField fConfig (buildWord scan reset pm chid swc cfg) = BitVec.ofBool cfg ∧
    readField fChannel (buildWord scan reset pm chid swc cfg) = 0 ∧
    (buildWord scan reset pm chid swc cfg).getLsbD 0 = false ∧
    ∀ setters : List (Word → Word),
      setters.Perm [(setField fScanMode · scan), (setField fReset · reset), (setField fPowerMode · pm),
        (setField fChannelIdEnable · (BitVec.ofBool chid)), (setField fSoftwareConvert · (BitVec.ofBool swc)),
        (setField fConfig · (BitVec.ofBool cfg))] →
      setters.foldl (fun w set => set w) defaultWord = buildWord scan reset pm chid swc cfg

/-- The engine's words (41_engine R131): MANUAL_CMD of any integer and SWEEP_CMD of any count have the values of 30_encoding
R82, fit the fixed bits of their rows of the table (R89), and change nothing but the codec's output (that they can be evaluated
alone is the model's choice, log 24). -/
def Obligations.EngineWordsHaveTheirValues : Prop :=
  (∀ (c : Int) (s : State), ∃ w : Word, exec (.manualCmd c) s = .next { s with codecOut := some (.value ⟨.command, w⟩) } ∧
    w.toNat = 0x0806 ||| ((if c < 0 then 0 else if 15 < c then 15 else c).toNat <<< 7) ∧ w &&& 0xF87F = 0x0806) ∧
  ∀ (n : Nat) (s : State), ∃ w : Word, exec (.sweepCmd n) s = .next { s with codecOut := some (.value ⟨.command, w⟩) } ∧
    w.toNat = (s.readAllScanMode.toNat <<< 11) ||| ((if n = 0 then 0 else if 16 < n then 15 else n - 1) <<< 7) ||| 0x0006 ∧
    w &&& 0x807F = 0x0006

/-- A tag matches an integer as integers do: never one below 0 or above 15; a mismatch validates to 0 (41_engine R132). -/
def Obligations.TagMatchIsIntegerEquality : Prop :=
  ∀ (r : Word) (e : Int),
    (tagMatches r e = true ↔ ((r.toNat / 4096 : Nat) : Int) = e) ∧
    (e < 0 ∨ 15 < e → tagMatches r e = false) ∧ (validate r e).toNat = checkedValue r e

/-- A codec function changes no register, emits nothing and does not depend on any register: its answer is the same in every
state of one instance (40_codec R100, 10_state R20). -/
def Obligations.CodecReadsAndWritesNoRegister : Prop :=
  ∀ i : Instr, i.port ≠ .request → ∀ s s' : State, s.readAllScanMode = s'.readAllScanMode →
    ∃ r, exec i s = .next { s with codecOut := some r } ∧ exec i s' = .next { s' with codecOut := some r }
end

