-- ==== Sys2Proof/Laws/Decode.lean ====
section
/-! SUPPORT. What the decoder can give: an operation of the port it was asked at, whose operands fit their ports. -/

namespace Sys2Proof

theorem fitsSigned_toInt (a : SignedOp) : fitsSigned a.toInt = true := by
  have h1 := a.le_toInt
  have h2 := a.toInt_lt
  simp only [fitsSigned, decide_eq_true_eq]
  omega

theorem fitsCount_toNat (n : Count) : fitsCount n.toNat = true := by
  have h := n.isLt
  simp only [fitsCount, decide_eq_true_eq]
  omega

theorem requestInstr_port (op : Op) (a : SignedOp) (n : Count) : (requestInstr op a n).port = .request := by
  cases op <;> rfl

theorem requestInstr_wellFormed (op : Op) (a : SignedOp) (n : Count) : (requestInstr op a n).wellFormed = true := by
  cases op <;> simp [requestInstr, Instr.wellFormed, fitsSigned_toInt, fitsCount_toNat]

/-- A one-word call that decodes had one word. -/
theorem decodeOne_ok {f : Word → Except Reject Instr} {ws : List Word} {i : Instr} (h : decodeOne f ws = .ok i) :
    ∃ w, ws = [w] ∧ f w = .ok i := by
  unfold decodeOne at h
  split at h
  · exact ⟨_, rfl, h⟩
  · cases h

/-- A two-operand call that decodes had two words, the second an operand. -/
theorem decodePair_ok {α : Type} {mk : Word → α → Instr} {second : Word → Except Reject α} {ws : List Word} {i : Instr}
    (h : decodePair mk second ws = .ok i) : ∃ w v x, ws = [w, v] ∧ second v = .ok x ∧ i = mk w x := by
  unfold decodePair at h
  split at h
  · rename_i w v
    cases hs : second v with
    | error e => simp [hs, Except.map] at h
    | ok x =>
      simp only [hs, Except.map, Except.ok.injEq] at h
      exact ⟨w, v, x, rfl, hs, h.symm⟩
  · cases h

/-- An operand that decodes is its container's low bits, with nothing above. -/
theorem operand_ok {n : Nat} {w : Word} {x : BitVec n} (h : operand n w = .ok x) : w.toNat < 2 ^ n ∧ x = w.setWidth n := by
  unfold operand at h
  split at h
  · rename_i hw
    exact ⟨hw, by simpa using h.symm⟩
  · cases h

/-- A mapped operand that decodes. -/
theorem operand_map_ok {n : Nat} {α : Type} {g : BitVec n → α} {w : Word} {x : α} (h : (operand n w).map g = .ok x) :
    ∃ b, operand n w = .ok b ∧ x = g b := by
  cases hs : operand n w with
  | error e => simp [hs, Except.map] at h
  | ok b =>
    simp only [hs, Except.map, Except.ok.injEq] at h
    exact ⟨b, rfl, h.symm⟩

/-- The decoder answers only operations of the port asked, with operands that fit. -/
theorem decode_sound {p : Port} {ws : List Word} {i : Instr} (h : decode p ws = .ok i) : i.port = p ∧ i.wellFormed = true := by
  cases p <;> simp only [decode] at h
  case request =>
    obtain ⟨w, -, hw⟩ := decodeOne_ok h
    unfold decodeRequest at hw
    split at hw
    · cases hw
    · simp only [Except.ok.injEq] at hw
      subst hw
      exact ⟨requestInstr_port .., requestInstr_wellFormed ..⟩
  case build =>
    obtain ⟨w, -, hw⟩ := decodeOne_ok h
    unfold decodeBuild at hw
    split at hw
    · simp only [Except.ok.injEq] at hw
      subst hw
      exact ⟨rfl, rfl⟩
    · cases hw
  case withChannel =>
    obtain ⟨w, v, x, -, -, rfl⟩ := decodePair_ok h
    exact ⟨rfl, fitsSigned_toInt x⟩
  case manualCmd =>
    obtain ⟨w, -, hw⟩ := decodeOne_ok h
    obtain ⟨b, -, rfl⟩ := operand_map_ok hw
    exact ⟨rfl, fitsSigned_toInt b⟩
  case sweepCmd =>
    obtain ⟨w, -, hw⟩ := decodeOne_ok h
    obtain ⟨b, -, rfl⟩ := operand_map_ok hw
    exact ⟨rfl, fitsCount_toNat b⟩
  case resetWord | defaultWord =>
    obtain ⟨w, -, hw⟩ := decodeOne_ok h
    unfold decodeFixed at hw
    split at hw
    · simp only [Except.ok.injEq] at hw
      subst hw
      exact ⟨rfl, rfl⟩
    · cases hw
  case respondingChannel | payload | buildResponse | toRaw | fromRaw =>
    obtain ⟨w, -, hw⟩ := decodeOne_ok h
    simp only [Except.ok.injEq] at hw
    subst hw
    exact ⟨rfl, rfl⟩
  case setConfig | setScanMode | setReset | setPowerMode | setChannelIdEnable | setSoftwareConvert =>
    obtain ⟨w, v, x, -, -, rfl⟩ := decodePair_ok h
    exact ⟨rfl, rfl⟩

end Sys2Proof
end

