-- ==== Sys2Proof/Laws/State.lean ====
section
/-! SUPPORT. What each update of the state does to each field: one lemma per field per update, so that no later proof unfolds a
record update. -/

namespace Sys2Proof.Machine

/-! `emit` -/

@[simp] theorem emit_slot (s : State) (es : List Event) : (s.emit es).slot = s.slot := rfl
@[simp] theorem emit_st (s : State) (es : List Event) : (s.emit es).st = s.st := rfl
@[simp] theorem emit_idx (s : State) (es : List Event) : (s.emit es).idx = s.idx := rfl
@[simp] theorem emit_ok (s : State) (es : List Event) : (s.emit es).ok = s.ok := rfl
@[simp] theorem emit_lastCmd (s : State) (es : List Event) : (s.emit es).lastCmd = s.lastCmd := rfl
@[simp] theorem emit_op (s : State) (es : List Event) : (s.emit es).op = s.op := rfl
@[simp] theorem emit_a (s : State) (es : List Event) : (s.emit es).a = s.a := rfl
@[simp] theorem emit_n (s : State) (es : List Event) : (s.emit es).n = s.n := rfl
@[simp] theorem emit_len (s : State) (es : List Event) : (s.emit es).len = s.len := rfl
@[simp] theorem emit_cfg (s : State) (es : List Event) : (s.emit es).cfg = s.cfg := rfl
@[simp] theorem emit_readAllScanMode (s : State) (es : List Event) : (s.emit es).readAllScanMode = s.readAllScanMode := rfl
@[simp] theorem emit_inXfer (s : State) (es : List Event) : (s.emit es).inXfer = s.inXfer := rfl
@[simp] theorem emit_trace (s : State) (es : List Event) : (s.emit es).trace = s.trace ++ es := rfl
@[simp] theorem emit_inputs (s : State) (es : List Event) : (s.emit es).inputs = s.inputs := rfl
@[simp] theorem emit_codecOut (s : State) (es : List Event) : (s.emit es).codecOut = s.codecOut := rfl
@[simp] theorem emit_free (s : State) (es : List Event) : (s.emit es).free = s.free := rfl

/-! `setSlot` -/

@[simp] theorem setSlot_slot (s : State) (i : Count) (v : Payload) : (s.setSlot i v).slot = s.slot.set i.toNat v i.isLt := rfl
@[simp] theorem setSlot_st (s : State) (i : Count) (v : Payload) : (s.setSlot i v).st = s.st := rfl
@[simp] theorem setSlot_idx (s : State) (i : Count) (v : Payload) : (s.setSlot i v).idx = s.idx := rfl
@[simp] theorem setSlot_ok (s : State) (i : Count) (v : Payload) : (s.setSlot i v).ok = s.ok := rfl
@[simp] theorem setSlot_lastCmd (s : State) (i : Count) (v : Payload) : (s.setSlot i v).lastCmd = s.lastCmd := rfl
@[simp] theorem setSlot_op (s : State) (i : Count) (v : Payload) : (s.setSlot i v).op = s.op := rfl
@[simp] theorem setSlot_a (s : State) (i : Count) (v : Payload) : (s.setSlot i v).a = s.a := rfl
@[simp] theorem setSlot_n (s : State) (i : Count) (v : Payload) : (s.setSlot i v).n = s.n := rfl
@[simp] theorem setSlot_len (s : State) (i : Count) (v : Payload) : (s.setSlot i v).len = s.len := rfl
@[simp] theorem setSlot_cfg (s : State) (i : Count) (v : Payload) : (s.setSlot i v).cfg = s.cfg := rfl
@[simp] theorem setSlot_readAllScanMode (s : State) (i : Count) (v : Payload) : (s.setSlot i v).readAllScanMode = s.readAllScanMode := rfl
@[simp] theorem setSlot_inXfer (s : State) (i : Count) (v : Payload) : (s.setSlot i v).inXfer = s.inXfer := rfl
@[simp] theorem setSlot_trace (s : State) (i : Count) (v : Payload) : (s.setSlot i v).trace = s.trace := rfl
@[simp] theorem setSlot_inputs (s : State) (i : Count) (v : Payload) : (s.setSlot i v).inputs = s.inputs := rfl
@[simp] theorem setSlot_codecOut (s : State) (i : Count) (v : Payload) : (s.setSlot i v).codecOut = s.codecOut := rfl
@[simp] theorem setSlot_free (s : State) (i : Count) (v : Payload) : (s.setSlot i v).free = s.free := rfl

/-! `codecAnswer` -/

@[simp] theorem codecAnswer_slot (s : State) (r : CodecResult) : (s.codecAnswer r).slot = s.slot := rfl
@[simp] theorem codecAnswer_st (s : State) (r : CodecResult) : (s.codecAnswer r).st = s.st := rfl
@[simp] theorem codecAnswer_idx (s : State) (r : CodecResult) : (s.codecAnswer r).idx = s.idx := rfl
@[simp] theorem codecAnswer_ok (s : State) (r : CodecResult) : (s.codecAnswer r).ok = s.ok := rfl
@[simp] theorem codecAnswer_lastCmd (s : State) (r : CodecResult) : (s.codecAnswer r).lastCmd = s.lastCmd := rfl
@[simp] theorem codecAnswer_op (s : State) (r : CodecResult) : (s.codecAnswer r).op = s.op := rfl
@[simp] theorem codecAnswer_a (s : State) (r : CodecResult) : (s.codecAnswer r).a = s.a := rfl
@[simp] theorem codecAnswer_n (s : State) (r : CodecResult) : (s.codecAnswer r).n = s.n := rfl
@[simp] theorem codecAnswer_len (s : State) (r : CodecResult) : (s.codecAnswer r).len = s.len := rfl
@[simp] theorem codecAnswer_cfg (s : State) (r : CodecResult) : (s.codecAnswer r).cfg = s.cfg := rfl
@[simp] theorem codecAnswer_readAllScanMode (s : State) (r : CodecResult) : (s.codecAnswer r).readAllScanMode = s.readAllScanMode := rfl
@[simp] theorem codecAnswer_inXfer (s : State) (r : CodecResult) : (s.codecAnswer r).inXfer = s.inXfer := rfl
@[simp] theorem codecAnswer_trace (s : State) (r : CodecResult) : (s.codecAnswer r).trace = s.trace := rfl
@[simp] theorem codecAnswer_inputs (s : State) (r : CodecResult) : (s.codecAnswer r).inputs = s.inputs := rfl
@[simp] theorem codecAnswer_codecOut (s : State) (r : CodecResult) : (s.codecAnswer r).codecOut = some r := rfl
@[simp] theorem codecAnswer_free (s : State) (r : CodecResult) : (s.codecAnswer r).free = s.free := rfl

/-! `answerCommand` -/

@[simp] theorem answerCommand_slot (s : State) (w : Word) : (s.answerCommand w).slot = s.slot := rfl
@[simp] theorem answerCommand_st (s : State) (w : Word) : (s.answerCommand w).st = s.st := rfl
@[simp] theorem answerCommand_idx (s : State) (w : Word) : (s.answerCommand w).idx = s.idx := rfl
@[simp] theorem answerCommand_ok (s : State) (w : Word) : (s.answerCommand w).ok = s.ok := rfl
@[simp] theorem answerCommand_lastCmd (s : State) (w : Word) : (s.answerCommand w).lastCmd = s.lastCmd := rfl
@[simp] theorem answerCommand_op (s : State) (w : Word) : (s.answerCommand w).op = s.op := rfl
@[simp] theorem answerCommand_a (s : State) (w : Word) : (s.answerCommand w).a = s.a := rfl
@[simp] theorem answerCommand_n (s : State) (w : Word) : (s.answerCommand w).n = s.n := rfl
@[simp] theorem answerCommand_len (s : State) (w : Word) : (s.answerCommand w).len = s.len := rfl
@[simp] theorem answerCommand_cfg (s : State) (w : Word) : (s.answerCommand w).cfg = s.cfg := rfl
@[simp] theorem answerCommand_readAllScanMode (s : State) (w : Word) : (s.answerCommand w).readAllScanMode = s.readAllScanMode := rfl
@[simp] theorem answerCommand_inXfer (s : State) (w : Word) : (s.answerCommand w).inXfer = s.inXfer := rfl
@[simp] theorem answerCommand_trace (s : State) (w : Word) : (s.answerCommand w).trace = s.trace := rfl
@[simp] theorem answerCommand_inputs (s : State) (w : Word) : (s.answerCommand w).inputs = s.inputs := rfl
@[simp] theorem answerCommand_codecOut (s : State) (w : Word) : (s.answerCommand w).codecOut = some (.value ⟨.command, w⟩) := rfl
@[simp] theorem answerCommand_free (s : State) (w : Word) : (s.answerCommand w).free = s.free := rfl

/-! `consume` -/

@[simp] theorem consume_slot (s : State) (rest : List Input) : (s.consume rest).slot = s.slot := rfl
@[simp] theorem consume_st (s : State) (rest : List Input) : (s.consume rest).st = s.st := rfl
@[simp] theorem consume_idx (s : State) (rest : List Input) : (s.consume rest).idx = s.idx := rfl
@[simp] theorem consume_ok (s : State) (rest : List Input) : (s.consume rest).ok = s.ok := rfl
@[simp] theorem consume_lastCmd (s : State) (rest : List Input) : (s.consume rest).lastCmd = s.lastCmd := rfl
@[simp] theorem consume_op (s : State) (rest : List Input) : (s.consume rest).op = s.op := rfl
@[simp] theorem consume_a (s : State) (rest : List Input) : (s.consume rest).a = s.a := rfl
@[simp] theorem consume_n (s : State) (rest : List Input) : (s.consume rest).n = s.n := rfl
@[simp] theorem consume_len (s : State) (rest : List Input) : (s.consume rest).len = s.len := rfl
@[simp] theorem consume_cfg (s : State) (rest : List Input) : (s.consume rest).cfg = s.cfg := rfl
@[simp] theorem consume_readAllScanMode (s : State) (rest : List Input) : (s.consume rest).readAllScanMode = s.readAllScanMode := rfl
@[simp] theorem consume_inXfer (s : State) (rest : List Input) : (s.consume rest).inXfer = s.inXfer := rfl
@[simp] theorem consume_trace (s : State) (rest : List Input) : (s.consume rest).trace = s.trace := rfl
@[simp] theorem consume_inputs (s : State) (rest : List Input) : (s.consume rest).inputs = rest := rfl
@[simp] theorem consume_codecOut (s : State) (rest : List Input) : (s.consume rest).codecOut = s.codecOut := rfl
@[simp] theorem consume_free (s : State) (rest : List Input) : (s.consume rest).free = s.free + 1 := rfl

/-! `presentWord` -/

@[simp] theorem presentWord_slot (s : State) (w : Word) : (s.presentWord w).slot = s.slot := rfl
@[simp] theorem presentWord_st (s : State) (w : Word) : (s.presentWord w).st = s.st := rfl
@[simp] theorem presentWord_idx (s : State) (w : Word) : (s.presentWord w).idx = s.idx := rfl
@[simp] theorem presentWord_ok (s : State) (w : Word) : (s.presentWord w).ok = s.ok := rfl
@[simp] theorem presentWord_lastCmd (s : State) (w : Word) : (s.presentWord w).lastCmd = s.lastCmd := rfl
@[simp] theorem presentWord_op (s : State) (w : Word) : (s.presentWord w).op = s.op := rfl
@[simp] theorem presentWord_a (s : State) (w : Word) : (s.presentWord w).a = s.a := rfl
@[simp] theorem presentWord_n (s : State) (w : Word) : (s.presentWord w).n = s.n := rfl
@[simp] theorem presentWord_len (s : State) (w : Word) : (s.presentWord w).len = s.len := rfl
@[simp] theorem presentWord_cfg (s : State) (w : Word) : (s.presentWord w).cfg = s.cfg := rfl
@[simp] theorem presentWord_readAllScanMode (s : State) (w : Word) : (s.presentWord w).readAllScanMode = s.readAllScanMode := rfl
@[simp] theorem presentWord_inXfer (s : State) (w : Word) : (s.presentWord w).inXfer = s.inXfer := rfl
@[simp] theorem presentWord_trace (s : State) (w : Word) : (s.presentWord w).trace = s.trace := rfl
@[simp] theorem presentWord_inputs (s : State) (w : Word) : (s.presentWord w).inputs = .call .request [w] :: s.inputs := rfl
@[simp] theorem presentWord_codecOut (s : State) (w : Word) : (s.presentWord w).codecOut = s.codecOut := rfl
@[simp] theorem presentWord_free (s : State) (w : Word) : (s.presentWord w).free = s.free := rfl

/-! `latch` -/

@[simp] theorem latch_slot (s : State) (op : Op) (a : SignedOp) (n : Count) : (s.latch op a n).slot = s.slot := rfl
@[simp] theorem latch_st (s : State) (op : Op) (a : SignedOp) (n : Count) : (s.latch op a n).st = s.st := rfl
@[simp] theorem latch_idx (s : State) (op : Op) (a : SignedOp) (n : Count) : (s.latch op a n).idx = s.idx := rfl
@[simp] theorem latch_ok (s : State) (op : Op) (a : SignedOp) (n : Count) : (s.latch op a n).ok = s.ok := rfl
@[simp] theorem latch_lastCmd (s : State) (op : Op) (a : SignedOp) (n : Count) : (s.latch op a n).lastCmd = s.lastCmd := rfl
@[simp] theorem latch_op (s : State) (op : Op) (a : SignedOp) (n : Count) : (s.latch op a n).op = op := rfl
@[simp] theorem latch_a (s : State) (op : Op) (a : SignedOp) (n : Count) : (s.latch op a n).a = a := rfl
@[simp] theorem latch_n (s : State) (op : Op) (a : SignedOp) (n : Count) : (s.latch op a n).n = n := rfl
@[simp] theorem latch_len (s : State) (op : Op) (a : SignedOp) (n : Count) : (s.latch op a n).len = s.len := rfl
@[simp] theorem latch_cfg (s : State) (op : Op) (a : SignedOp) (n : Count) : (s.latch op a n).cfg = s.cfg := rfl
@[simp] theorem latch_readAllScanMode (s : State) (op : Op) (a : SignedOp) (n : Count) : (s.latch op a n).readAllScanMode = s.readAllScanMode := rfl
@[simp] theorem latch_inXfer (s : State) (op : Op) (a : SignedOp) (n : Count) : (s.latch op a n).inXfer = s.inXfer := rfl
@[simp] theorem latch_trace (s : State) (op : Op) (a : SignedOp) (n : Count) : (s.latch op a n).trace = s.trace := rfl
@[simp] theorem latch_inputs (s : State) (op : Op) (a : SignedOp) (n : Count) : (s.latch op a n).inputs = s.inputs := rfl
@[simp] theorem latch_codecOut (s : State) (op : Op) (a : SignedOp) (n : Count) : (s.latch op a n).codecOut = s.codecOut := rfl
@[simp] theorem latch_free (s : State) (op : Op) (a : SignedOp) (n : Count) : (s.latch op a n).free = s.free := rfl

/-! `finish` -/

@[simp] theorem finish_slot (s : State) : (finish s).slot = s.slot := rfl
@[simp] theorem finish_st (s : State) : (finish s).st = .idle := rfl
@[simp] theorem finish_idx (s : State) : (finish s).idx = s.idx := rfl
@[simp] theorem finish_ok (s : State) : (finish s).ok = s.ok := rfl
@[simp] theorem finish_lastCmd (s : State) : (finish s).lastCmd = s.lastCmd := rfl
@[simp] theorem finish_op (s : State) : (finish s).op = s.op := rfl
@[simp] theorem finish_a (s : State) : (finish s).a = s.a := rfl
@[simp] theorem finish_n (s : State) : (finish s).n = s.n := rfl
@[simp] theorem finish_len (s : State) : (finish s).len = s.len := rfl
@[simp] theorem finish_cfg (s : State) : (finish s).cfg = s.cfg := rfl
@[simp] theorem finish_readAllScanMode (s : State) : (finish s).readAllScanMode = s.readAllScanMode := rfl
@[simp] theorem finish_inXfer (s : State) : (finish s).inXfer = s.inXfer := rfl
@[simp] theorem finish_trace (s : State) : (finish s).trace = s.trace ++ [.txnEnd] := rfl
@[simp] theorem finish_inputs (s : State) : (finish s).inputs = s.inputs := rfl
@[simp] theorem finish_codecOut (s : State) : (finish s).codecOut = s.codecOut := rfl
@[simp] theorem finish_free (s : State) : (finish s).free = s.free := rfl

/-! `xfer` -/

@[simp] theorem xfer_slot (tx rx : Word) (s : State) : (xfer tx rx s).slot = s.slot := rfl
@[simp] theorem xfer_st (tx rx : Word) (s : State) : (xfer tx rx s).st = s.st := rfl
@[simp] theorem xfer_idx (tx rx : Word) (s : State) : (xfer tx rx s).idx = s.idx := rfl
@[simp] theorem xfer_ok (tx rx : Word) (s : State) : (xfer tx rx s).ok = s.ok := rfl
@[simp] theorem xfer_lastCmd (tx rx : Word) (s : State) : (xfer tx rx s).lastCmd = tx := rfl
@[simp] theorem xfer_op (tx rx : Word) (s : State) : (xfer tx rx s).op = s.op := rfl
@[simp] theorem xfer_a (tx rx : Word) (s : State) : (xfer tx rx s).a = s.a := rfl
@[simp] theorem xfer_n (tx rx : Word) (s : State) : (xfer tx rx s).n = s.n := rfl
@[simp] theorem xfer_len (tx rx : Word) (s : State) : (xfer tx rx s).len = s.len := rfl
@[simp] theorem xfer_cfg (tx rx : Word) (s : State) : (xfer tx rx s).cfg = s.cfg := rfl
@[simp] theorem xfer_readAllScanMode (tx rx : Word) (s : State) : (xfer tx rx s).readAllScanMode = s.readAllScanMode := rfl
@[simp] theorem xfer_inXfer (tx rx : Word) (s : State) : (xfer tx rx s).inXfer = false := rfl
@[simp] theorem xfer_trace (tx rx : Word) (s : State) : (xfer tx rx s).trace = s.trace ++ frameEvents s.inXfer tx rx := rfl
@[simp] theorem xfer_inputs (tx rx : Word) (s : State) : (xfer tx rx s).inputs = s.inputs := rfl
@[simp] theorem xfer_codecOut (tx rx : Word) (s : State) : (xfer tx rx s).codecOut = s.codecOut := rfl
@[simp] theorem xfer_free (tx rx : Word) (s : State) : (xfer tx rx s).free = s.free := rfl

/-! `acceptRead` -/

@[simp] theorem acceptRead_slot (op : Op) (a : SignedOp) (n : Count) (s : State) : (acceptRead op a n s).slot = s.slot := rfl
@[simp] theorem acceptRead_st (op : Op) (a : SignedOp) (n : Count) (s : State) : (acceptRead op a n s).st = .priming := rfl
@[simp] theorem acceptRead_idx (op : Op) (a : SignedOp) (n : Count) (s : State) : (acceptRead op a n s).idx = 0 := rfl
@[simp] theorem acceptRead_ok (op : Op) (a : SignedOp) (n : Count) (s : State) : (acceptRead op a n s).ok = s.ok := rfl
@[simp] theorem acceptRead_lastCmd (op : Op) (a : SignedOp) (n : Count) (s : State) : (acceptRead op a n s).lastCmd = s.lastCmd := rfl
@[simp] theorem acceptRead_op (op : Op) (a : SignedOp) (n : Count) (s : State) : (acceptRead op a n s).op = op := rfl
@[simp] theorem acceptRead_a (op : Op) (a : SignedOp) (n : Count) (s : State) : (acceptRead op a n s).a = a := rfl
@[simp] theorem acceptRead_n (op : Op) (a : SignedOp) (n : Count) (s : State) : (acceptRead op a n s).n = n := rfl
@[simp] theorem acceptRead_len (op : Op) (a : SignedOp) (n : Count) (s : State) : (acceptRead op a n s).len = s.len := rfl
@[simp] theorem acceptRead_cfg (op : Op) (a : SignedOp) (n : Count) (s : State) : (acceptRead op a n s).cfg = s.cfg := rfl
@[simp] theorem acceptRead_readAllScanMode (op : Op) (a : SignedOp) (n : Count) (s : State) : (acceptRead op a n s).readAllScanMode = s.readAllScanMode := rfl
@[simp] theorem acceptRead_inXfer (op : Op) (a : SignedOp) (n : Count) (s : State) : (acceptRead op a n s).inXfer = false := rfl
@[simp] theorem acceptRead_trace (op : Op) (a : SignedOp) (n : Count) (s : State) : (acceptRead op a n s).trace = s.trace ++ [.txnBegin] := rfl
@[simp] theorem acceptRead_inputs (op : Op) (a : SignedOp) (n : Count) (s : State) : (acceptRead op a n s).inputs = s.inputs := rfl
@[simp] theorem acceptRead_codecOut (op : Op) (a : SignedOp) (n : Count) (s : State) : (acceptRead op a n s).codecOut = s.codecOut := rfl
@[simp] theorem acceptRead_free (op : Op) (a : SignedOp) (n : Count) (s : State) : (acceptRead op a n s).free = s.free := rfl

/-! `acceptInit` -/

@[simp] theorem acceptInit_slot (a : SignedOp) (n : Count) (s : State) : (acceptInit a n s).slot = s.slot := rfl
@[simp] theorem acceptInit_st (a : SignedOp) (n : Count) (s : State) : (acceptInit a n s).st = .init := rfl
@[simp] theorem acceptInit_idx (a : SignedOp) (n : Count) (s : State) : (acceptInit a n s).idx = s.idx := rfl
@[simp] theorem acceptInit_ok (a : SignedOp) (n : Count) (s : State) : (acceptInit a n s).ok = s.ok := rfl
@[simp] theorem acceptInit_lastCmd (a : SignedOp) (n : Count) (s : State) : (acceptInit a n s).lastCmd = s.lastCmd := rfl
@[simp] theorem acceptInit_op (a : SignedOp) (n : Count) (s : State) : (acceptInit a n s).op = .init := rfl
@[simp] theorem acceptInit_a (a : SignedOp) (n : Count) (s : State) : (acceptInit a n s).a = a := rfl
@[simp] theorem acceptInit_n (a : SignedOp) (n : Count) (s : State) : (acceptInit a n s).n = n := rfl
@[simp] theorem acceptInit_len (a : SignedOp) (n : Count) (s : State) : (acceptInit a n s).len = s.len := rfl
@[simp] theorem acceptInit_cfg (a : SignedOp) (n : Count) (s : State) : (acceptInit a n s).cfg = s.cfg := rfl
@[simp] theorem acceptInit_readAllScanMode (a : SignedOp) (n : Count) (s : State) : (acceptInit a n s).readAllScanMode = s.readAllScanMode := rfl
@[simp] theorem acceptInit_inXfer (a : SignedOp) (n : Count) (s : State) : (acceptInit a n s).inXfer = false := rfl
@[simp] theorem acceptInit_trace (a : SignedOp) (n : Count) (s : State) : (acceptInit a n s).trace = s.trace ++ [.csDeassert, .settle, .configure s.cfg.clockHz s.cfg.bitOrder s.cfg.mode, .txnBegin] := rfl
@[simp] theorem acceptInit_inputs (a : SignedOp) (n : Count) (s : State) : (acceptInit a n s).inputs = s.inputs := rfl
@[simp] theorem acceptInit_codecOut (a : SignedOp) (n : Count) (s : State) : (acceptInit a n s).codecOut = s.codecOut := rfl
@[simp] theorem acceptInit_free (a : SignedOp) (n : Count) (s : State) : (acceptInit a n s).free = s.free := rfl

/-! `hardwareReset` -/

@[simp] theorem hardwareReset_slot (s : State) : (hardwareReset s).slot = resetSlots s.free := rfl
@[simp] theorem hardwareReset_st (s : State) : (hardwareReset s).st = .uninit := rfl
@[simp] theorem hardwareReset_idx (s : State) : (hardwareReset s).idx = Config.resetIdx s.free := rfl
@[simp] theorem hardwareReset_ok (s : State) : (hardwareReset s).ok = Config.resetOk s.free := rfl
@[simp] theorem hardwareReset_lastCmd (s : State) : (hardwareReset s).lastCmd = Config.resetLastCmd s.free := rfl
@[simp] theorem hardwareReset_op (s : State) : (hardwareReset s).op = Op.ofCode (Config.resetOp s.free) := rfl
@[simp] theorem hardwareReset_a (s : State) : (hardwareReset s).a = Config.resetA s.free := rfl
@[simp] theorem hardwareReset_n (s : State) : (hardwareReset s).n = Config.resetN s.free := rfl
@[simp] theorem hardwareReset_len (s : State) : (hardwareReset s).len = Config.resetLen s.free := rfl
@[simp] theorem hardwareReset_cfg (s : State) : (hardwareReset s).cfg = s.cfg := rfl
@[simp] theorem hardwareReset_readAllScanMode (s : State) : (hardwareReset s).readAllScanMode = s.readAllScanMode := rfl
@[simp] theorem hardwareReset_inXfer (s : State) : (hardwareReset s).inXfer = false := rfl
@[simp] theorem hardwareReset_trace (s : State) : (hardwareReset s).trace = s.trace := rfl
@[simp] theorem hardwareReset_inputs (s : State) : (hardwareReset s).inputs = s.inputs := rfl
@[simp] theorem hardwareReset_codecOut (s : State) : (hardwareReset s).codecOut = s.codecOut := rfl
@[simp] theorem hardwareReset_free (s : State) : (hardwareReset s).free = s.free := rfl

end Sys2Proof.Machine
end

