-- ==== Sys2Proof/Laws/Ops.lean ====
section
/-! SUPPORT. What each shared operation can do, said once: one transfer, a stall, a rejected call, the transfer step of each
position, the run of an operation on the answers at hand, the presentation of a request, and the step for each kind of input. -/

namespace Sys2Proof.Machine

@[simp] theorem refuse_eq (s : State) : refuse s = s := rfl

@[simp] theorem rejectCall_eq (r : Reject) (s : State) : rejectCall r s = s := by cases r <;> rfl

@[simp] theorem frameEvents_closed (tx rx : Word) : frameEvents false tx rx = [.csAssert, .xchg tx rx, .csDeassert, .settle] := rfl

@[simp] theorem frameEvents_opened (tx rx : Word) : frameEvents true tx rx = [.xchg tx rx, .csDeassert, .settle] := rfl

theorem busy_eq (s : State) : s.busy = s.st.busy := rfl

/-- A stall opens the frame of a waiting exchange, and otherwise does nothing. -/
theorem stall_cases (s : State) :
    (s.busy = true ∧ s.inXfer = false ∧ stall s = { s.emit [.csAssert] with inXfer := true }) ∨ stall s = s := by
  unfold stall
  cases h : s.busy <;> cases h' : s.inXfer <;> simp

theorem transfer_of_uninit (rx : Word) {s : State} (h : s.st = .uninit) : transfer rx s = s := by simp [transfer, h]

theorem transfer_of_idle (rx : Word) {s : State} (h : s.st = .idle) : transfer rx s = s := by simp [transfer, h]

theorem transfer_of_init (rx : Word) {s : State} (h : s.st = .init) : transfer rx s = finish (xfer resetWord rx s) := by
  simp [transfer, h, transferInit]

/-- The priming transfer of an operation with nothing to harvest ends it (42_sequencer R165). -/
theorem transfer_of_priming_empty (rx : Word) {s : State} (h : s.st = .priming) (ht : total s.op s.n = 0) :
    transfer rx s = finish { xfer (primeCmd s.readAllScanMode s.op s.a s.n) rx s with ok := okPrimed s.op s.ok, len := 0 } := by
  simp [transfer, h, transferPriming, ht]

/-- The priming transfer of any other operation leads to STEADY (R165). -/
theorem transfer_of_priming_more (rx : Word) {s : State} (h : s.st = .priming) (ht : total s.op s.n ≠ 0) :
    transfer rx s =
      { xfer (primeCmd s.readAllScanMode s.op s.a s.n) rx s with ok := okPrimed s.op s.ok, st := .steady } := by
  simp [transfer, h, transferPriming, ht]

/-- A harvest that is not the last stays in STEADY (R166). -/
theorem transfer_of_steady_more (rx : Word) {s : State} (h : s.st = .steady) (ht : s.idx.toNat + 1 ≠ total s.op s.n) :
    transfer rx s =
      { (xfer (steadyCmd s.readAllScanMode s.op s.a s.n s.idx) rx s).setSlot s.idx
          (validate rx (expected s.op s.a s.idx)) with
        ok := okHarvested s.op s.idx rx s.ok
        idx := s.idx + 1 } := by
  simp [transfer, h, transferSteady, ht]

/-- The last harvest ends the operation (R166). -/
theorem transfer_of_steady_last (rx : Word) {s : State} (h : s.st = .steady) (ht : s.idx.toNat + 1 = total s.op s.n) :
    transfer rx s =
      finish { (xfer (steadyCmd s.readAllScanMode s.op s.a s.n s.idx) rx s).setSlot s.idx
          (validate rx (expected s.op s.a s.idx)) with
        ok := okHarvested s.op s.idx rx s.ok
        idx := s.idx + 1
        len := BitVec.ofNat 5 (total s.op s.n) } := by
  simp [transfer, h, transferSteady, ht]

/-- What no transfer step changes: the latches, the parameters, the model's own fields. -/
theorem transfer_frame (rx : Word) (s : State) :
    (transfer rx s).op = s.op ∧ (transfer rx s).a = s.a ∧ (transfer rx s).n = s.n ∧ (transfer rx s).cfg = s.cfg ∧
      (transfer rx s).readAllScanMode = s.readAllScanMode ∧ (transfer rx s).inputs = s.inputs ∧
      (transfer rx s).codecOut = s.codecOut ∧ (transfer rx s).free = s.free := by
  unfold transfer transferInit transferPriming transferSteady
  split <;> (try split) <;> simp

@[simp] theorem runOnAnswers_nil (s : State) : runOnAnswers [] s = s := rfl

/-- An answer at hand is taken by the operation in progress. -/
theorem runOnAnswers_busy {i : Input} {rx : Word} (hi : i.word? = some rx) (rest : List Input) {s : State} (h : s.busy = true) :
    runOnAnswers (i :: rest) s = runOnAnswers rest (transfer rx { s with inputs := rest }) := by
  simp [runOnAnswers, hi, h]

/-- With no operation in progress no answer is taken. -/
theorem runOnAnswers_of_not_busy (ins : List Input) {s : State} (h : s.busy = false) : runOnAnswers ins s = s := by
  cases ins with
  | nil => rfl
  | cons i rest => simp only [runOnAnswers, h]; cases i.word? <;> simp

/-- Without an answer at hand the engine stays where it is (20_memory R63). -/
theorem runOnAnswers_of_noAnswer {ins : List Input} (h : noAnswerAtHand ins) (s : State) : runOnAnswers ins s = s := by
  cases ins with
  | nil => rfl
  | cons i rest =>
    have hi : i.word? = none := h i (by simp)
    simp [runOnAnswers, hi]

/-- A request in a position that does not take it changes nothing (60_exceptions R186). -/
theorem present_refused {op : Op} {s : State} (h : accepts s.st op = false) (a : SignedOp) (n : Count) : present op a n s = s := by
  simp [present, h]

/-- A request in a position that takes it is accepted and runs on the answers at hand (42_sequencer R162, R163). -/
theorem present_accepted {op : Op} {s : State} (h : accepts s.st op = true) (a : SignedOp) (n : Count) :
    present op a n s = runOnAnswers s.inputs (accept op a n s) := by
  simp [present, h]

theorem step_of_nothing {s : State} (h : s.inputs = []) : step s = .next (stall s) := by simp [step, h]

theorem step_of_rejected {s : State} {p : Port} {ws : List Word} {rest : List Input} {r : Reject}
    (h : s.inputs = .call p ws :: rest) (hd : decode p ws = .error r) : step s = .next (s.consume rest) := by
  simp [step, h, hd]

theorem step_of_answer {s : State} {rx : Word} {rest : List Input} (h : s.inputs = .answer rx :: rest) :
    step s = .next (transfer rx (s.consume rest)) := by simp [step, h]

theorem step_of_answerBytes {s : State} {hi lo : BitVec 8} {rest : List Input} (h : s.inputs = .answerBytes hi lo :: rest) :
    step s = .next (transfer (joinBytes hi lo) (s.consume rest)) := by simp [step, h]

theorem step_of_stall {s : State} {rest : List Input} (h : s.inputs = .stall :: rest) :
    step s = .next (stall (s.consume rest)) := by simp [step, h]

theorem step_of_hwReset {s : State} {rest : List Input} (h : s.inputs = .hwReset :: rest) :
    step s = .next (hardwareReset (s.consume rest)) := by simp [step, h]

end Sys2Proof.Machine
end

