-- ==== Sys2Proof/Laws/PerInstr.lean ====
section
/-! SUPPORT. The families of statements made of every operation, one lemma per constructor of `Instr`.

`DecodeSound`: the decoder answers an operation only at its own port, and only one that can be presented (30_encoding R79, R80,
R89; 00_scope R8). -/

namespace Sys2Proof.Laws

/-- What the decoder can answer, as a fact about the operation `i`. -/
def DecodeSound.Statement (i : Instr) : Prop :=
  ∀ (p : Port) (ws : List Word), decode p ws = .ok i → i.port = p ∧ i.wellFormed = true

theorem DecodeSound.init (a : Int) (n : Nat) : DecodeSound.Statement (.init a n) := fun _ _ h => decode_sound h

theorem DecodeSound.readChannel (ch : Int) (n : Nat) : DecodeSound.Statement (.readChannel ch n) := fun _ _ h => decode_sound h

theorem DecodeSound.readRange (start : Int) (count : Nat) : DecodeSound.Statement (.readRange start count) := fun _ _ h => decode_sound h

theorem DecodeSound.readAll (size : Nat) (a : Int) : DecodeSound.Statement (.readAll size a) := fun _ _ h => decode_sound h

theorem DecodeSound.build (scan : BitVec 4) (reset pm : BitVec 2) (chid swc cfg : Bool) : DecodeSound.Statement (.build scan reset pm chid swc cfg) := fun _ _ h => decode_sound h

theorem DecodeSound.withChannel (w : Word) (ch : Int) : DecodeSound.Statement (.withChannel w ch) := fun _ _ h => decode_sound h

theorem DecodeSound.setConfig (w : Word) (v : Bool) : DecodeSound.Statement (.setConfig w v) := fun _ _ h => decode_sound h

theorem DecodeSound.setScanMode (w : Word) (v : BitVec 4) : DecodeSound.Statement (.setScanMode w v) := fun _ _ h => decode_sound h

theorem DecodeSound.setReset (w : Word) (v : BitVec 2) : DecodeSound.Statement (.setReset w v) := fun _ _ h => decode_sound h

theorem DecodeSound.setPowerMode (w : Word) (v : BitVec 2) : DecodeSound.Statement (.setPowerMode w v) := fun _ _ h => decode_sound h

theorem DecodeSound.setChannelIdEnable (w : Word) (v : Bool) : DecodeSound.Statement (.setChannelIdEnable w v) := fun _ _ h => decode_sound h

theorem DecodeSound.setSoftwareConvert (w : Word) (v : Bool) : DecodeSound.Statement (.setSoftwareConvert w v) := fun _ _ h => decode_sound h

theorem DecodeSound.respondingChannel (w : Word) : DecodeSound.Statement (.respondingChannel w) := fun _ _ h => decode_sound h

theorem DecodeSound.payload (w : Word) : DecodeSound.Statement (.payload w) := fun _ _ h => decode_sound h

theorem DecodeSound.buildResponse (ch : Chan) (p : Payload) : DecodeSound.Statement (.buildResponse ch p) := fun _ _ h => decode_sound h

theorem DecodeSound.toRaw (v : WordValue) : DecodeSound.Statement (.toRaw v) := fun _ _ h => decode_sound h

theorem DecodeSound.fromRaw (k : WordKind) (x : Word) : DecodeSound.Statement (.fromRaw k x) := fun _ _ h => decode_sound h

theorem DecodeSound.resetWord : DecodeSound.Statement .resetWord := fun _ _ h => decode_sound h

theorem DecodeSound.defaultWord : DecodeSound.Statement .defaultWord := fun _ _ h => decode_sound h

theorem DecodeSound.manualCmd (c : Int) : DecodeSound.Statement (.manualCmd c) := fun _ _ h => decode_sound h

theorem DecodeSound.sweepCmd (n : Nat) : DecodeSound.Statement (.sweepCmd n) := fun _ _ h => decode_sound h

end Sys2Proof.Laws
end

