-- ==== Sys2Proof/Laws/Trace.lean ====
section
/-! SUPPORT. How the views of a trace pass over an appended block, and what one transfer's events add to each. -/

namespace Sys2Proof.Machine

theorem frameOf_append (a b : List Event) : frameOf (a ++ b) = (frameOf a).bind fun f => b.foldlM frameStep f := by
  simp [frameOf, List.foldlM_append]

theorem csLine_append (a b : List Event) : csLine (a ++ b) = b.foldl csAfter (csLine a) := by simp [csLine]

theorem txnOpen_append (a b : List Event) : txnOpen (a ++ b) = b.foldl txnAfter (txnOpen a) := by simp [txnOpen]

theorem configuredWith_append (a b : List Event) : configuredWith (a ++ b) = b.foldl configAfter (configuredWith a) := by
  simp [configuredWith]

theorem exchanges_append (a b : List Event) : exchanges (a ++ b) = exchanges a ++ exchanges b := by
  induction a with
  | nil => rfl
  | cons e es ih => cases e <;> simp [exchanges, ih]

theorem sent_append (a b : List Event) : sent (a ++ b) = sent a ++ sent b := by simp [sent, exchanges_append]

theorem lastSent_append (a b : List Event) : lastSent (a ++ b) = (lastSent b).or (lastSent a) := by
  simp [lastSent, sent_append, List.getLast?_append]

/-- A transfer's events lead the framing from where the frame stands back to ready (20_memory R53). -/
theorem frameEvents_frame (opened : Bool) (tx rx : Word) :
    (frameEvents opened tx rx).foldlM frameStep (if opened then Frame.asserted else .ready) = some .ready := by
  cases opened <;> rfl

theorem frameEvents_exchanges (opened : Bool) (tx rx : Word) : exchanges (frameEvents opened tx rx) = [(tx, rx)] := by
  cases opened <;> rfl

theorem frameEvents_sent (opened : Bool) (tx rx : Word) : sent (frameEvents opened tx rx) = [tx] := by cases opened <;> rfl

theorem frameEvents_lastSent (opened : Bool) (tx rx : Word) : lastSent (frameEvents opened tx rx) = some tx := by
  cases opened <;> rfl

theorem frameEvents_txn (opened : Bool) (tx rx : Word) (x : Bool) : (frameEvents opened tx rx).foldl txnAfter x = x := by
  cases opened <;> rfl

theorem frameEvents_config (opened : Bool) (tx rx : Word) (c : Option (Nat × BitOrder × BusMode)) :
    (frameEvents opened tx rx).foldl configAfter c = c := by cases opened <;> rfl

theorem transfersEvents_nil (rxs : List Word) : transfersEvents [] rxs = [] := by simp [transfersEvents]

theorem transfersEvents_cons (tx rx : Word) (txs rxs : List Word) :
    transfersEvents (tx :: txs) (rx :: rxs) = transferEvents tx rx ++ transfersEvents txs rxs := rfl

/-- Transfers made one after another exchange the words in pairs (41_engine R133). -/
theorem exchanges_transfersEvents : ∀ txs rxs : List Word, exchanges (transfersEvents txs rxs) = txs.zip rxs
  | [], rxs => by simp [transfersEvents, exchanges]
  | tx :: txs, [] => by simp [transfersEvents, exchanges]
  | tx :: txs, rx :: rxs => by
    rw [transfersEvents_cons, exchanges_append, exchanges_transfersEvents txs rxs]
    rfl

end Sys2Proof.Machine
end

