-- ==== Sys2Proof/Tests/Slice0.lean ====
section
/-! SUPPORT. The model's own tests: ill-formed operands refused, the word of every row decoded bit by bit, one or two small
vectors per operation, and for every statement with hypotheses a concrete instance that meets them. Expected results are those
of spec/95_test_vectors.md (section named in each comment) or worked by hand from the rule named. -/

namespace Sys2Proof.Tests

open Sys2Proof Sys2Proof.Machine

/-! ## Well-formedness: one ill-formed term for each check (00_scope R8) -/

theorem test_wf_init_signed : (Instr.init 128 0).wellFormed = false := by decide
theorem test_wf_init_count : (Instr.init 0 32).wellFormed = false := by decide
theorem test_wf_readChannel_signed : (Instr.readChannel (-129) 0).wellFormed = false := by decide
theorem test_wf_readChannel_count : (Instr.readChannel 7 32).wellFormed = false := by decide
theorem test_wf_readRange_signed : (Instr.readRange 128 4).wellFormed = false := by decide
theorem test_wf_readRange_count : (Instr.readRange 14 32).wellFormed = false := by decide
theorem test_wf_readAll_count : (Instr.readAll 32 0).wellFormed = false := by decide
theorem test_wf_readAll_signed : (Instr.readAll 16 (-129)).wellFormed = false := by decide
theorem test_wf_withChannel_signed : (Instr.withChannel 0x0806 128).wellFormed = false := by decide
theorem test_wf_manualCmd_signed : (Instr.manualCmd (-129)).wellFormed = false := by decide
theorem test_wf_sweepCmd_count : (Instr.sweepCmd 32).wellFormed = false := by decide

/-! ## Decoding: a word of every row, written out from 30_encoding R71, R72, R80 -/

theorem test_decode_init : decode .request [0b00_0_11111_11111111] = .ok (.init (-1) 31) := rfl
theorem test_decode_readChannel : decode .request [0b01_0_11111_00000111] = .ok (.readChannel 7 31) := rfl
theorem test_decode_readRange : decode .request [0b10_0_00100_11111101] = .ok (.readRange (-3) 4) := rfl
theorem test_decode_readAll : decode .request [0b11_0_10000_10100101] = .ok (.readAll 16 (-91)) := rfl
theorem test_decode_reserved : decode .request [0b01_1_00000_00000111] = .error .reservedRequestBit := rfl
theorem test_decode_build : decode .build [0b1_1000_0000_01_10_0_1_0] = .ok (.build 8 1 2 false true true) := rfl
theorem test_decode_build_fixed : decode .build [0b0_0001_0000_00_00_1_1_1] = .error .fixedBits := rfl
theorem test_decode_withChannel : decode .withChannel [0x0806, 0b10000000] = .ok (.withChannel 0x0806 (-128)) := rfl
theorem test_decode_setConfig : decode .setConfig [0x0806, 1] = .ok (.setConfig 0x0806 true) := rfl
theorem test_decode_setScanMode : decode .setScanMode [0x0F86, 0b0011] = .ok (.setScanMode 0x0F86 3) := rfl
theorem test_decode_setReset : decode .setReset [0x0806, 0b10] = .ok (.setReset 0x0806 2) := rfl
theorem test_decode_setPowerMode : decode .setPowerMode [0x0806, 0b11] = .ok (.setPowerMode 0x0806 3) := rfl
theorem test_decode_setChannelIdEnable :
    decode .setChannelIdEnable [0x0806, 0] = .ok (.setChannelIdEnable 0x0806 false) := rfl
theorem test_decode_setSoftwareConvert :
    decode .setSoftwareConvert [0x0000, 1] = .ok (.setSoftwareConvert 0x0000 true) := rfl
theorem test_decode_wide_operand : decode .setReset [0x0806, 0b100] = .error .operandTooWide := rfl
theorem test_decode_word_count : decode .setReset [0x0806] = .error .wordCount := rfl
theorem test_decode_respondingChannel : decode .respondingChannel [0x7ABC] = .ok (.respondingChannel 0x7ABC) := rfl
theorem test_decode_payload : decode .payload [0x7ABC] = .ok (.payload 0x7ABC) := rfl
theorem test_decode_buildResponse : decode .buildResponse [0b0111_101010111100] = .ok (.buildResponse 7 0xABC) := rfl
theorem test_decode_toRaw : decode (.toRaw .command) [0x8040] = .ok (.toRaw ⟨.command, 0x8040⟩) := rfl
theorem test_decode_fromRaw : decode (.fromRaw .response) [0x8041] = .ok (.fromRaw .response 0x8041) := rfl
theorem test_decode_resetWord : decode .resetWord [0b1_0000_0000_10_00_0_0_0] = .ok .resetWord := rfl
theorem test_decode_defaultWord : decode .defaultWord [0b0_0001_0000_00_00_1_1_0] = .ok .defaultWord := rfl
theorem test_decode_manualCmd : decode .manualCmd [0b11111111] = .ok (.manualCmd (-1)) := rfl
theorem test_decode_sweepCmd : decode .sweepCmd [0b10100] = .ok (.sweepCmd 20) := rfl
theorem test_encode_readRange : encode (.readRange 14 4) = [0x840E] := rfl
theorem test_decodeTableWord : decodeTableWord 16 0x840E = some (.readRange 14 4) := rfl

/-! ## Effects on a small state -/

/-- A concrete state at position `st` with these inputs: slots 0xEEE, OK 0, scan mode 3 (the default of 00_scope R8), clock 10
MHz, and the trace INIT leaves behind, its one answer 0xFFFF (95_test_vectors P1). -/
def stand (st : SeqState) (ins : List Input) : State where
  slot := Vector.replicate 32 0xEEE
  st := st
  idx := 0
  ok := false
  lastCmd := 0x8040
  op := .init
  a := 0
  n := 0
  len := 9
  cfg := { csId := 3, clockHz := 10000000, bitOrder := .msbFirst, mode := .mode3 }
  readAllScanMode := 3
  inXfer := false
  trace := [.csDeassert, .settle, .configure 10000000 .msbFirst .mode3, .txnBegin, .csAssert, .xchg 0x8040 0xFFFF,
    .csDeassert, .settle, .txnEnd]
  inputs := ins
  codecOut := none
  free := 0

/-- The state an outcome goes on to, if it does. -/
def after (o : Host.Outcome State Fault Refusal) : Option State :=
  match o with
  | .next t => some t
  | .fault _ => none
  | .refused _ => none

/-- The state an operation leaves from IDLE with these responses. -/
def ran (i : Instr) (rxs : List Word) : Option State := after (exec i (stand .idle (answers rxs)))

/-- The first `k` slots. -/
def slots (k : Nat) (s : State) : List Payload := s.slot.toList.take k

/-- The word a codec function answers. -/
def codecWord (i : Instr) : Option CodecResult := (after (exec i (stand .uninit []))).bind (·.codecOut)

/-- P1, S8: nine events. -/
theorem test_init : (after (exec (.init 0 0) { stand .uninit [.answer 0xFFFF] with trace := [] })).map
    (fun t => (t.st, t.lastCmd, t.len, t.trace)) = some (.idle, 0x8040, 9, (stand .idle []).trace) := by decide

/-- 2.10: INIT with all ignored bits set latches A = 0xFF, N = 31. -/
theorem test_init_latches : (ran (.init (-1) 31) [0]).map (fun t => (t.st, t.op, t.a, t.n)) = some (.idle, .init, 0xFF, 31) := by
  decide

/-- 2.6, S3. -/
theorem test_readChannel : (ran (.readChannel 7 0) [0x0000, 0x7123]).map
    (fun t => (slots 2 t, t.len, t.idx, sent t.trace)) = some ([0x123, 0xEEE], 1, 1, [0x8040, 0x0B86, 0x0B86]) := by decide

/-- 2.6: "clamped in the command, not in the comparison: 15 is not 20". -/
theorem test_readChannel_out_of_range : (ran (.readChannel 20 0) [0x0000, 0xF5A5]).map
    (fun t => (slots 1 t, t.lastCmd)) = some ([0], 0x0F86) := by decide

/-- 2.7, P2: the range over the top channel. -/
theorem test_readRange : (ran (.readRange 14 4) [0x3FFF, 0xE100, 0xF101, 0x0102, 0x1103]).map
    (fun t => (slots 5 t, t.len, sent t.trace)) =
      some ([0x100, 0x101, 0, 0, 0xEEE], 4, [0x8040, 0x0F06, 0x0F86, 0x0806, 0x0886, 0x0906]) := by decide

/-- 2.7: a negative start. -/
theorem test_readRange_negative : (ran (.readRange (-3) 4) [0x0000, 0x0001, 0xE002, 0xF003, 0x0777]).map
    (fun t => (slots 4 t, sent t.trace)) =
      some ([0, 0, 0, 0x777], [0x8040, 0x0806, 0x0F06, 0x0F86, 0x0806, 0x0886]) := by decide

/-- 2.8: one bad tag clears OK and its slot. -/
theorem test_readAll : (ran (.readAll 4 0) [0x0000, 0x0300, 0x1301, 0x5302, 0x3303]).map
    (fun t => (slots 5 t, t.ok, t.len, sent t.trace)) =
      some ([0x300, 0x301, 0, 0x303, 0xEEE], false, 4, [0x8040, 0x1986, 0x1986, 0x1986, 0x1986, 0x1986]) := by decide

/-- 2.8: OK tells genuine zeros from mismatches. -/
theorem test_readAll_zeros : (ran (.readAll 4 0) [0x0000, 0x0000, 0x1000, 0x2000, 0x3000]).map
    (fun t => (slots 4 t, t.ok)) = some ([0, 0, 0, 0], true) := by decide

/-- 2.1. -/
theorem test_build : codecWord (.build 8 1 2 false true false) = some (.value ⟨.command, 0x4032⟩) := by decide
/-- 2.1: reserved codes are packed verbatim. -/
theorem test_build_reserved : codecWord (.build 15 3 3 true true true) = some (.value ⟨.command, 0xF87E⟩) := by decide
/-- 2.2, S2. -/
theorem test_withChannel : codecWord (.withChannel 0x0806 20) = some (.value ⟨.command, 0x0F86⟩) := by decide
/-- 2.2: only bits 10:7 change. -/
theorem test_withChannel_passes : codecWord (.withChannel 0xFFFF 0) = some (.value ⟨.command, 0xF87F⟩) := by decide
/-- 2.3. -/
theorem test_setConfig : codecWord (.setConfig 0xFFFF false) = some (.value ⟨.command, 0x7FFF⟩) := by decide
/-- 2.3. -/
theorem test_setScanMode : codecWord (.setScanMode 0x0F86 3) = some (.value ⟨.command, 0x1F86⟩) := by decide
/-- 2.3. -/
theorem test_setReset : codecWord (.setReset 0xFFFF 0) = some (.value ⟨.command, 0xFF9F⟩) := by decide
/-- 2.3. -/
theorem test_setPowerMode : codecWord (.setPowerMode 0x0806 2) = some (.value ⟨.command, 0x0816⟩) := by decide
/-- 2.3. -/
theorem test_setChannelIdEnable : codecWord (.setChannelIdEnable 0x0806 false) = some (.value ⟨.command, 0x0802⟩) := by decide
/-- 2.3. -/
theorem test_setSoftwareConvert : codecWord (.setSoftwareConvert 0x0000 true) = some (.value ⟨.command, 0x0002⟩) := by decide
/-- 2.4. -/
theorem test_respondingChannel : codecWord (.respondingChannel 0x7ABC) = some (.tag 7) := by decide
/-- 2.4. -/
theorem test_payload : codecWord (.payload 0x7ABC) = some (.data 0xABC) := by decide
/-- S1. -/
theorem test_buildResponse : codecWord (.buildResponse 7 2748) = some (.value ⟨.response, 0x7ABC⟩) := by decide
/-- 40_codec R115. -/
theorem test_toRaw : codecWord (.toRaw ⟨.command, 0x8041⟩) = some (.raw 0x8041) := by decide
/-- 40_codec R115: bit 0 set can arise here. -/
theorem test_fromRaw : codecWord (.fromRaw .response 0x8041) = some (.value ⟨.response, 0x8041⟩) := by decide
/-- S8. -/
theorem test_resetWord : codecWord .resetWord = some (.value ⟨.command, 0x8040⟩) := by decide
/-- S9. -/
theorem test_defaultWord : codecWord .defaultWord = some (.value ⟨.command, 0x0806⟩) := by decide
/-- 2.5. -/
theorem test_manualCmd : codecWord (.manualCmd 7) = some (.value ⟨.command, 0x0B86⟩) := by decide
/-- 2.5. -/
theorem test_sweepCmd : codecWord (.sweepCmd 4) = some (.value ⟨.command, 0x1986⟩) := by decide
/-- 2.5: `clamp15(-1) = 0`. -/
theorem test_sweepCmd_zero : codecWord (.sweepCmd 0) = some (.value ⟨.command, 0x1806⟩) := by decide

/-- 2.9: the third step of READ_ALL 2, a mismatch at the last index. -/
theorem test_last_harvest :
    (after (step { stand .steady [.answer 0x2BBB] with op := .readAll, n := 2, idx := 1, ok := true })).map
      (fun t => (t.st, t.idx, t.ok, t.len, slots 2 t)) = some (.idle, 2, false, 2, [0xEEE, 0]) := by decide

/-- 2.10: a read in UNINIT is refused and changes nothing. -/
theorem test_refused : after (step (stand .uninit [.call .request [0x4007]])) = some { stand .uninit [] with free := 1 } := by
  decide

/-- 2.11: the line stays asserted over a hardware reset. -/
theorem test_hwReset : (after (step { stand .steady [.hwReset] with inXfer := true })).map (fun t => (t.st, t.inXfer)) =
    some (.uninit, false) := rfl

/-- The first instruction after reset runs as the very next step (log 19): INIT is accepted in UNINIT. -/
theorem test_withFetchWord : (after (step (State.reset.withFetchWord 16 0x1FFF))).map (fun t => (t.st, t.a, t.n)) =
    some (.init, 0xFF, 31) := rfl

/-! ## Witnesses: each statement's hypotheses are met -/

/-- IDLE with these responses, then whatever the outside does next. -/
def idleWith (rxs : List Word) (rest : List Input) : State := stand .idle (answers rxs ++ rest)

theorem witness_DecodeReadsEncodedCalls :
    (Instr.readRange (-128) 31).wellFormed = true ∧ (Instr.readAll 0 127).wellFormed = true ∧
      (Instr.manualCmd 127).wellFormed = true ∧ (Instr.sweepCmd 31).wellFormed = true := by decide

theorem witness_EncodeWritesDecodedCalls :
    decode .request [0xDF80] = .ok (.readAll 31 (-128)) ∧ decode .build [0xF87E] = .ok (.build 15 3 3 true true true) ∧
      decode .sweepCmd [31] = .ok (.sweepCmd 31) := ⟨rfl, rfl, rfl⟩

theorem witness_RequestWordsAreCutByPosition :
    (0x2000#16).toNat / 8192 % 2 = 1 ∧ (0xFFFF#16).toNat / 8192 % 2 = 1 ∧ (0xDFFF#16).toNat / 8192 % 2 = 0 ∧
      (0x4080#16).toNat / 8192 % 2 = 0 := by decide

theorem witness_StepRunsDecodedCall :
    (stand .idle [.call .request [0x840E], .answer 0]).inputs = .call .request [0x840E] :: [.answer 0] ∧
      decode .request [0x840E] = .ok (.readRange 14 4) := ⟨rfl, rfl⟩

/-- A request while BUSY, a read in UNINIT, bit 13 in IDLE. -/
theorem witness_ReadinessTableAndRefusals :
    (stand .steady [.call .request [0x0000]]).reqReady 0x0000 = false ∧
      (stand .uninit [.call .request [0x4007]]).reqReady 0x4007 = false ∧
      (stand .idle [.call .request [0x2000]]).reqReady 0x2000 = false ∧
      (stand .idle [.call .request [0x2000]]).inputs = .call .request [0x2000] :: [] := by decide

theorem witness_AcceptedReadWaitsInPriming :
    (stand .idle []).st = .idle ∧ noAnswerAtHand (stand .idle []).inputs ∧ noAnswerAtHand (stand .idle [.stall]).inputs ∧
      Op.readRange ≠ .init ∧ Instr.readRange (-128) 31 = requestInstr .readRange 0x80 31 := by
  refine ⟨rfl, ?_, ?_, by decide, rfl⟩ <;> simp [stand, noAnswerAtHand, Input.word?]

theorem witness_AcceptedInitConfiguresBus :
    (stand .uninit [.hwReset]).st = .uninit ∧ (stand .idle [.hwReset]).st = .idle ∧
      noAnswerAtHand (stand .uninit [.hwReset]).inputs := by
  refine ⟨rfl, rfl, ?_⟩
  simp [stand, noAnswerAtHand, Input.word?]

theorem witness_InitCompletes :
    (stand .uninit [.answer 0xFFFF]).st = .uninit ∧ (stand .idle [.answer 0xFFFF]).st = .idle ∧
      (stand .uninit [.answer 0xFFFF]).inputs = .answer 0xFFFF :: [] := ⟨rfl, rfl, rfl⟩

theorem witness_ReadChannelCompletes :
    (idleWith [0, 0x7123] [.stall]).st = .idle ∧ (-128 : Int) ≤ 127 ∧
      (idleWith [0, 0x7123] [.stall]).inputs = .answer 0 :: .answer 0x7123 :: [.stall] := ⟨rfl, by decide, rfl⟩

/-- At the ends of the ranges: start -128 with no result, start 127 with 31. -/
theorem witness_ReadRangeFillsItsSlots :
    (-128 : Int) ≤ -128 ∧ (-128 : Int) ≤ 127 ∧ (127 : Int) ≤ 127 ∧ 0 < 32 ∧ 31 < 32 ∧ ([] : List Word).length = 0 ∧
      (List.replicate 31 (0 : Word)).length = 31 ∧ (idleWith [0xABCD] []).st = .idle ∧
      (idleWith [0xABCD] []).inputs = answers (0xABCD :: []) ++ [] ∧
      (idleWith (0xABCD :: List.replicate 31 0) []).inputs = answers (0xABCD :: List.replicate 31 0) ++ [] := by decide

theorem witness_ReadAllFillsItsSlotsAndFlag :
    (idleWith [0x1234] []).st = .idle ∧ 0 < 32 ∧ ([] : List Word).length = 0 ∧
      (idleWith [0x1234] []).inputs = answers (0x1234 :: []) ++ [] ∧ 31 < 32 ∧ (List.replicate 31 (0 : Word)).length = 31 ∧
      (idleWith (0 :: List.replicate 31 0) []).inputs = answers (0 :: List.replicate 31 0) ++ [] := by decide

theorem witness_OperationAndTransferLevelsAgree :
    (idleWith [0, 0xE100, 0xF101] [.stall]).st = .idle ∧ ([0, 0xE100, 0xF101] : List Word).length = total .readRange 2 + 1 ∧
      (idleWith [0, 0xE100, 0xF101] [.stall]).inputs = answers [0, 0xE100, 0xF101] ++ [.stall] ∧
      (stand .uninit (answers [5])).st = .uninit ∧ ([5] : List Word).length = total .init 0 + 1 := by decide

theorem witness_StepByStepRunAgrees :
    (stand .idle (.call .request [0xC100] :: (lateAnswers [0, 0x0555] ++ []))).inputs =
        .call .request (encode (requestInstr .readAll 0 1)) :: (lateAnswers [0, 0x0555] ++ []) ∧
      ([0, 0x0555] : List Word).length = total .readAll 1 + 1 ∧
      (stand .uninit (.call .request [0x0000] :: (lateAnswers [7] ++ []))).inputs =
        .call .request (encode (requestInstr .init 0 0)) :: (lateAnswers [7] ++ []) := by decide

theorem witness_UnansweredExchangeBlocksForEver :
    { stand .steady [.stall, .call .request [0x0000]] with inXfer := true }.busy = true ∧
      { stand .steady [.stall, .call .request [0x0000]] with inXfer := true }.inXfer = true ∧
      ∀ i ∈ (stand .steady [.stall, .call .request [0x0000]]).inputs, i.word? = none ∧ i ≠ .hwReset := by decide

theorem witness_StallAssertsChipSelect :
    (stand .init [.stall, .answer 0]).busy = true ∧ (stand .init [.stall, .answer 0]).inXfer = false ∧
      (stand .init [.stall, .answer 0]).inputs = .stall :: [.answer 0] ∧ (stand .priming []).busy = true ∧
      (stand .priming []).inXfer = false ∧ (stand .priming []).inputs = [] := by decide

/-- A read operation standing at `idx`, its next answer at hand. -/
def reading (st : SeqState) (op : Op) (n idx : Count) : State := { stand st [.answer 1] with op := op, n := n, idx := idx }

/-- A state for each clause, at the first and the last index. -/
theorem witness_TransferFollowsStateArrows :
    (stand .uninit [.answer 1]).inputs = .answer 1 :: [] ∧ (stand .init [.answer 1]).st = .init ∧
      ((reading .priming .readAll 31 0).st = .priming ∧ (reading .priming .readAll 31 0).op ≠ .init ∧
        (reading .priming .readAll 31 0).n.toNat ≠ 0) ∧
      ((reading .priming .readRange 0 0).st = .priming ∧ (reading .priming .readRange 0 0).n.toNat = 0) ∧
      ((reading .steady .readChannel 0 0).st = .steady ∧ (reading .steady .readChannel 0 0).idx = 0) ∧
      ((reading .steady .readRange 31 30).idx.toNat < (reading .steady .readRange 31 30).n.toNat ∧
        (reading .steady .readRange 31 30).idx.toNat + 1 = (reading .steady .readRange 31 30).n.toNat) ∧
      ((reading .steady .readAll 31 0).idx.toNat < (reading .steady .readAll 31 0).n.toNat ∧
        (reading .steady .readAll 31 0).inputs = .answer 1 :: []) := by decide

theorem witness_OutOfRangeChannelReadsZero :
    (idleWith [0, 0x05A5] []).st = .idle ∧ fitsSigned (-1) = true ∧ (-1 : Int) < 0 ∧ fitsSigned 16 = true ∧ (15 : Int) < 16 ∧
      (idleWith [0, 0x05A5] []).inputs = .answer 0 :: .answer 0x05A5 :: [] := by decide

theorem witness_RangeSlotsOutsideChannelsAreZero :
    (idleWith [0, 1, 2, 3] []).st = .idle ∧ ([0, 1, 2, 3] : List Word).length = (3 : Count).toNat + 1 ∧
      (idleWith [0, 1, 2, 3] []).inputs = answers [0, 1, 2, 3] ++ [] ∧ (1 : Count).toNat < (3 : Count).toNat ∧
      15 < (15 : SignedOp).toInt + (1 : Count).toNat ∧ (0xFF : SignedOp).toInt + (0 : Count).toNat < 0 := by decide

theorem witness_LongSweepNeverSucceeds :
    (idleWith (List.replicate 18 0) []).st = .idle ∧ 16 < (17 : Count).toNat ∧
      (List.replicate 18 (0 : Word)).length = (17 : Count).toNat + 1 ∧
      (idleWith (List.replicate 18 0) []).inputs = answers (List.replicate 18 0) ++ [] ∧ 16 ≤ (16 : Count).toNat := by decide

theorem witness_SweepFlagVouchesForSlots :
    (idleWith [0, 0x0300, 0x1301] []).st = .idle ∧ ([0, 0x0300, 0x1301] : List Word).length = (2 : Count).toNat + 1 ∧
      (idleWith [0, 0x0300, 0x1301] []).inputs = answers [0, 0x0300, 0x1301] ++ [] ∧
      ∃ t, exec (.readAll (2 : Count).toNat 0) (idleWith [0, 0x0300, 0x1301] []) = .next t ∧ t.ok = true :=
  ⟨rfl, rfl, rfl, _, rfl, rfl⟩

theorem witness_SweepAndRangeFromZeroAgree :
    (idleWith [0, 0x0300, 0x5301] []).st = .idle ∧ ([0, 0x0300, 0x5301] : List Word).length = (2 : Count).toNat + 1 ∧
      (idleWith [0, 0x0300, 0x5301] []).inputs = answers [0, 0x0300, 0x5301] ++ [] := by decide

theorem witness_ResponsesChangeOnlyResults :
    (stand .idle []).st = .idle ∧ ([0, 0x0300] : List Word).length = total .readAll 1 + 1 ∧
      ([0xFFFF, 0x1300] : List Word).length = ([0, 0x0300] : List Word).length := by decide

/-- Channels 14 and 15 from a far chip that keeps its contract, its sample of channel c being 0x100 + c: the premise on the
exchanges is met too. -/
theorem witness_PipelinedRangeReadsTheSamples :
    (idleWith [0x3FFF, 0xE10E, 0xF10F] []).st = .idle ∧ (0 : Int) ≤ 14 ∧ (14 : Int) + (2 : Nat) ≤ 16 ∧
      ([0x3FFF, 0xE10E, 0xF10F] : List Word).length = 2 + 1 ∧
      (idleWith [0x3FFF, 0xE10E, 0xF10F] []).inputs = answers [0x3FFF, 0xE10E, 0xF10F] ++ [] ∧
      followsPipeline (fun c => 0x100 + c.setWidth 12) [(0x0F06, 0x3FFF), (0x0F86, 0xE10E), (0x0806, 0xF10F)] := by
  refine ⟨rfl, by decide, by decide, rfl, rfl, ?_⟩
  simp only [followsPipeline, and_true]
  exact ⟨fun _ => by decide, fun _ => by decide⟩

/-- The state INIT leaves meets the invariant. -/
theorem stand_idle_inv (ins : List Input) : Inv (stand .idle ins) := by
  refine ⟨trivial, ⟨rfl, rfl, rfl⟩, ⟨rfl, rfl⟩, ?_⟩
  intro w hw
  have h : w = 0x8040 := by simpa [stand, sent, exchanges] using hw
  exact .inl h

theorem witness_StepKeepsInvariant :
    Inv (stand .idle [.call .request [0x4007], .stall]) ∧
      ∃ t, step (stand .idle [.call .request [0x4007], .stall]) = .next t := ⟨stand_idle_inv _, _, rfl⟩

theorem witness_ParametersAreNeverWritten : ∃ t, step (stand .idle [.hwReset]) = .next t := ⟨_, rfl⟩

theorem witness_TraceOnlyGrows : ∃ t, step (stand .steady [.answer 1]) = .next t := ⟨_, rfl⟩

theorem witness_SettleFollowsEveryRelease : Inv (stand .idle []) := stand_idle_inv []

/-- READ_CHANNEL 7 accepted, its first exchange outstanding or not begun. -/
def accepted (outstanding : Bool) : State :=
  { stand .priming [] with
    op := .readChannel
    a := 7
    inXfer := outstanding
    trace := (stand .priming []).trace ++ (if outstanding then [.txnBegin, .csAssert] else [.txnBegin]) }

theorem witness_ChipSelectLineFollowsPosition :
    (Inv (stand .idle []) ∧ (stand .idle []).st = .idle) ∧
      ∀ outstanding : Bool, Inv (accepted outstanding) ∧ (accepted outstanding).busy = true := by
  refine ⟨⟨stand_idle_inv [], rfl⟩, ?_⟩
  intro o
  refine ⟨⟨⟨by cases o <;> decide, by cases o <;> rfl⟩, ⟨by cases o <;> rfl, by cases o <;> rfl⟩,
    ⟨by cases o <;> rfl, by cases o <;> rfl⟩, ?_⟩, by cases o <;> rfl⟩
  intro w hw
  have h : w = 0x8040 := by cases o <;> simpa [accepted, stand, sent, exchanges] using hw
  exact .inl h

theorem witness_OnlyInitConfigures :
    (∀ a n, Instr.readAll 1 0 ≠ .init a n) ∧ ∃ t, exec (.readAll 1 0) (idleWith [0, 0x0555] []) = .next t :=
  ⟨by simp, _, rfl⟩

theorem witness_HardwareResetAbandons :
    (stand .steady [.hwReset, .call .request [0x0000], .answer 5]).inputs =
      .hwReset :: .call .request [0x0000] :: .answer 5 :: [] := rfl

theorem witness_StatusShowsItsFields : (stand .idle []).busy = false ∧ (stand .uninit []).busy = false := by decide

theorem witness_SlotPortZeroExtends : (stand .idle []).busy = false ∧ (31 : Count).toNat = 31 := by decide

theorem witness_WireOrderIsMsbFirst : 0 < 16 ∧ 15 < 16 := by decide

theorem witness_TwoByteExchangeIsHighFirst :
    (stand .priming [.answerBytes 0xFF 0x00, .stall]).inputs = .answerBytes 0xFF 0x00 :: [.stall] := rfl

theorem witness_FixedWordsHaveTheirValues : (4 ≠ 5 ∧ 4 ≠ 6) ∧ 7 ≠ 5 ∧ 7 ≠ 6 := by decide

theorem witness_SettersAreIndependent :
    fConfig ∈ [fConfig, fScanMode, fChannel, fReset, fPowerMode, fChannelIdEnable, fSoftwareConvert] ∧
      fSoftwareConvert ∈ [fConfig, fScanMode, fChannel, fReset, fPowerMode, fChannelIdEnable, fSoftwareConvert] ∧
      fSoftwareConvert ≠ fConfig ∧ ¬ (fReset.lo ≤ 7 ∧ 7 < fReset.lo + fReset.width) ∧
      ¬ (fReset.lo ≤ 4 ∧ 4 < fReset.lo + fReset.width) := by decide

theorem witness_CommandFieldsRoundTrip :
    [(setField fScanMode · 1), (setField fReset · 2), (setField fPowerMode · 0), (setField fChannelIdEnable · 1),
        (setField fSoftwareConvert · 1), (setField fConfig · 0)].Perm
      [(setField fScanMode · 1), (setField fReset · 2), (setField fPowerMode · 0), (setField fChannelIdEnable · 1),
        (setField fSoftwareConvert · 1), (setField fConfig · 0)] := List.Perm.refl _

theorem witness_TagMatchIsIntegerEquality : (-1 : Int) < 0 ∧ (15 : Int) < 16 ∧ ((0xF000#16).toNat / 4096 : Nat) = 15 := by decide

theorem witness_CodecReadsAndWritesNoRegister :
    (Instr.sweepCmd 16).port ≠ .request ∧ (stand .idle []).readAllScanMode = (stand .steady []).readAllScanMode := by decide

end Sys2Proof.Tests
end

section
/-! The owner's slot read port (10_state R37). -/

namespace Sys2Proof.SlotPort
open Sys2Proof Sys2Proof.Machine

/-- Only a BUSY engine shows the free value of R225; otherwise the port shows the slot itself. -/
theorem slotData_of_not_busy {s : State} (i : Count) (hbusy : s.busy = false) :
    s.slotData i = (s.slotAt i).setWidth 16 := by
  simp [State.slotData, hbusy]

/-- Settles O36: outside BUSY the port shows the slot, and widening 12 bits to 16 keeps its value. -/
theorem slotPortZeroExtends : Obligations.SlotPortZeroExtends := by
  intro s i hbusy
  calc (s.slotData i).toNat
      _ = ((s.slotAt i).setWidth 16).toNat := by rw [slotData_of_not_busy i hbusy]
      _ = (s.slotAt i).toNat := BitVec.toNat_setWidth_of_le (by decide)
      _ = (s.slot[i.toNat]'i.isLt).toNat := rfl

end Sys2Proof.SlotPort
end

section
/-! The fields of a command word (30_encoding R71): what reading, placing and setting one does, for every field that lies inside
the word, and what it leaves of the fields beside it (40_codec R111). -/

namespace Sys2Proof.Machine

/-- The seven fields of a command word, bit 15 first (30_encoding R71). -/
abbrev commandFields : List Field :=
  [fConfig, fScanMode, fChannel, fReset, fPowerMode, fChannelIdEnable, fSoftwareConvert]

/-- Bit `k` belongs to the field. -/
abbrev Field.Covers (f : Field) (k : Nat) : Prop := f.lo ≤ k ∧ k < f.lo + f.width

/-- The field lies inside a 16-bit word. -/
abbrev Field.Fits (f : Field) : Prop := f.lo + f.width ≤ 16

/-- The two fields share no bit: one ends before the other begins. -/
abbrev Field.Disjoint (f g : Field) : Prop := f.lo + f.width ≤ g.lo ∨ g.lo + g.width ≤ f.lo

/-- A value at its field's place, zeros elsewhere: what BUILD ORs together and what a setter ORs in (40_codec R101, R111). -/
def Field.place (f : Field) (v : BitVec f.width) : Word := v.setWidth 16 <<< f.lo

theorem commandFields_fit : ∀ f ∈ commandFields, f.Fits := by decide

theorem commandFields_above_bit_zero : ∀ f ∈ commandFields, 0 < f.lo := by decide

theorem commandFields_disjoint : ∀ f ∈ commandFields, ∀ g ∈ commandFields, g ≠ f → f.Disjoint g := by decide

/-- The seven fields and bit 0 are the whole word. -/
theorem commandFields_cover : ∀ k < 16, k = 0 ∨ ∃ f ∈ commandFields, f.Covers k := by decide

/-! Bit by bit -/

theorem Field.getLsbD_mask (f : Field) {k : Nat} (hk : k < 16) : f.mask.getLsbD k = decide (f.Covers k) := by
  have hin : (f.lo ≤ k ∧ k - f.lo < f.width) ↔ f.Covers k := by omega
  simp only [Field.mask, BitVec.getLsbD_ofNat, hk, Nat.testBit_shiftLeft, Nat.testBit_two_pow_sub_one, ge_iff_le, decide_true,
    Bool.true_and, ← Bool.decide_and, hin]

theorem Field.getLsbD_place {f : Field} (hf : f.Fits) (v : BitVec f.width) (k : Nat) :
    (f.place v).getLsbD k = (decide (f.Covers k) && v.getLsbD (k - f.lo)) := by
  by_cases hc : f.Covers k
  · have h16 : k < 16 := by omega
    have hlo : ¬ k < f.lo := by omega
    simp [Field.place, hc, h16, hlo]
  · have hout : k < f.lo ∨ f.width ≤ k - f.lo := by omega
    rcases hout with hlo | hhi
    · simp [Field.place, hc, hlo]
    · simp [Field.place, hc, BitVec.getLsbD_of_ge v _ hhi]

theorem getLsbD_readField {f : Field} {i : Nat} (hi : i < f.width) (w : Word) :
    (readField f w).getLsbD i = w.getLsbD (f.lo + i) := by
  simp [readField, hi]

/-- A setter writes the bits of its field and keeps the others. -/
theorem getLsbD_setField {f : Field} (hf : f.Fits) (w : Word) (v : BitVec f.width) (k : Nat) :
    (setField f w v).getLsbD k = if f.Covers k then v.getLsbD (k - f.lo) else w.getLsbD k := by
  by_cases hk : k < 16
  · have hset : (setField f w v).getLsbD k =
        (w.getLsbD k && !decide (f.Covers k) || (f.place v).getLsbD k && decide (f.Covers k)) := by
      rw [← f.getLsbD_mask hk]
      simp [setField, Field.place, hk]
    rw [hset, Field.getLsbD_place hf]
    by_cases hc : f.Covers k <;> simp [hc]
  · have hc : ¬ f.Covers k := by omega
    have h16 : 16 ≤ k := by omega
    rw [if_neg hc, BitVec.getLsbD_of_ge _ _ h16, BitVec.getLsbD_of_ge _ _ h16]

/-- No bit outside the field changes (40_codec R111). -/
theorem getLsbD_setField_outside {f : Field} (hf : f.Fits) (w : Word) (v : BitVec f.width) {k : Nat} (hout : ¬ f.Covers k) :
    (setField f w v).getLsbD k = w.getLsbD k := by
  rw [getLsbD_setField hf, if_neg hout]

/-- Bit 0 lies in no field, so no value placed reaches it. -/
theorem place_bit_zero {f : Field} (hf : f.Fits) (hlo : 0 < f.lo) (v : BitVec f.width) : (f.place v).getLsbD 0 = false := by
  have hout : ¬ f.Covers 0 := by omega
  rw [Field.getLsbD_place hf, decide_eq_false hout, Bool.false_and]

/-- Bit 0 is never touched by a setter (40_codec R111). -/
theorem setField_bit_zero {f : Field} (hf : f.Fits) (hlo : 0 < f.lo) (w : Word) (v : BitVec f.width) :
    (setField f w v).getLsbD 0 = w.getLsbD 0 :=
  getLsbD_setField_outside hf w v (by omega)

/-- A bit inside a field is a bit of the field read. -/
theorem getLsbD_of_covers {f : Field} {k : Nat} (hc : f.Covers k) (w : Word) :
    w.getLsbD k = (readField f w).getLsbD (k - f.lo) := by
  have hin : k - f.lo < f.width := by omega
  have hk : f.lo + (k - f.lo) = k := by omega
  rw [getLsbD_readField hin, hk]

/-! Reading -/

/-- Only the field's own bits count. -/
theorem readField_congr {f : Field} {w w' : Word} (h : ∀ k, f.Covers k → w.getLsbD k = w'.getLsbD k) :
    readField f w = readField f w' := by
  apply BitVec.eq_of_getLsbD_eq
  intro i hi
  have hc : f.Covers (f.lo + i) := by omega
  rw [getLsbD_readField hi, getLsbD_readField hi, h _ hc]

/-- A field whose bits are those of `v` reads `v`. -/
theorem readField_eq_of_bits {f : Field} {w : Word} {v : BitVec f.width}
    (h : ∀ k, f.Covers k → w.getLsbD k = v.getLsbD (k - f.lo)) : readField f w = v := by
  apply BitVec.eq_of_getLsbD_eq
  intro i hi
  have hc : f.Covers (f.lo + i) := by omega
  rw [getLsbD_readField hi, h _ hc, Nat.add_sub_cancel_left]

theorem readField_or (f : Field) (w w' : Word) : readField f (w ||| w') = readField f w ||| readField f w' := by
  simp [readField, BitVec.extractLsb'_or]

theorem readField_place_same {f : Field} (hf : f.Fits) (v : BitVec f.width) : readField f (f.place v) = v :=
  readField_eq_of_bits fun k hc => by simp [Field.getLsbD_place hf, hc]

theorem readField_place_other {f g : Field} (hf : f.Fits) (hfg : f.Disjoint g) (v : BitVec f.width) :
    readField g (f.place v) = 0#g.width :=
  readField_eq_of_bits fun k hc => by
    have hout : ¬ f.Covers k := by omega
    simp [Field.getLsbD_place hf, hout]

theorem readField_setField_same {f : Field} (hf : f.Fits) (w : Word) (v : BitVec f.width) :
    readField f (setField f w v) = v :=
  readField_eq_of_bits fun k hc => by rw [getLsbD_setField hf, if_pos hc]

theorem readField_setField_other {f g : Field} (hf : f.Fits) (hfg : f.Disjoint g) (w : Word) (v : BitVec f.width) :
    readField g (setField f w v) = readField g w :=
  readField_congr fun k hc => getLsbD_setField_outside hf w v (by omega)

/-- A command word is its seven fields and bit 0. -/
theorem eq_of_readField_eq {w w' : Word} (hfields : ∀ f ∈ commandFields, readField f w = readField f w')
    (hzero : w.getLsbD 0 = w'.getLsbD 0) : w = w' := by
  apply BitVec.eq_of_getLsbD_eq
  intro k hk
  obtain rfl | ⟨f, hf, hc⟩ := commandFields_cover k hk
  · exact hzero
  · rw [getLsbD_of_covers hc, getLsbD_of_covers hc, hfields f hf]

/-! Setting -/

/-- A value at its place lies under the field's mask. -/
theorem Field.place_and_mask {f : Field} (hf : f.Fits) (v : BitVec f.width) : f.place v &&& f.mask = f.place v := by
  apply BitVec.eq_of_getLsbD_eq
  intro k hk
  rw [BitVec.getLsbD_and, f.getLsbD_mask hk, Field.getLsbD_place hf, Bool.and_right_comm, Bool.and_self]

/-- Placing a value is multiplying it by the weight of the field's lowest bit. -/
theorem Field.place_eq_ofNat (f : Field) (v : BitVec f.width) : f.place v = BitVec.ofNat 16 (v.toNat <<< f.lo) := by
  apply BitVec.eq_of_toNat_eq
  simp [Field.place, Nat.shiftLeft_eq]

/-- A setter clears the field's bits and ORs in the value at its place. -/
theorem setField_eq_or_place {f : Field} (hf : f.Fits) (w : Word) (v : BitVec f.width) :
    setField f w v = (w &&& ~~~f.mask) ||| f.place v := by
  rw [← Field.place_and_mask hf v]
  rfl

/-- The same by numbers: `m` is the field's mask and `n` the value. -/
theorem setField_eq_ofNat {f : Field} (hf : f.Fits) {m : Word} (hm : f.mask = m) {v : BitVec f.width} {n : Nat}
    (hn : v.toNat = n) (w : Word) : setField f w v = (w &&& ~~~m) ||| BitVec.ofNat 16 (n <<< f.lo) := by
  rw [setField_eq_or_place hf, Field.place_eq_ofNat, hm, hn]

theorem setField_setField {f : Field} (hf : f.Fits) (w : Word) (v v' : BitVec f.width) :
    setField f (setField f w v) v' = setField f w v' := by
  apply BitVec.eq_of_getLsbD_eq
  intro k _
  simp only [getLsbD_setField hf]
  split <;> rfl

theorem setField_readField {f : Field} (hf : f.Fits) (w : Word) : setField f w (readField f w) = w := by
  apply BitVec.eq_of_getLsbD_eq
  intro k _
  rw [getLsbD_setField hf]
  split
  · next hc => exact (getLsbD_of_covers hc w).symm
  · rfl

theorem setField_comm {f g : Field} (hf : f.Fits) (hg : g.Fits) (hfg : f.Disjoint g) (w : Word) (v : BitVec f.width)
    (u : BitVec g.width) : setField g (setField f w v) u = setField f (setField g w u) v := by
  apply BitVec.eq_of_getLsbD_eq
  intro k _
  simp only [getLsbD_setField hf, getLsbD_setField hg]
  by_cases hc : f.Covers k
  · have hout : ¬ g.Covers k := by omega
    simp only [if_pos hc, if_neg hout]
  · simp only [if_neg hc]

end Sys2Proof.Machine
end

section
/-! Lists of settings: setters of disjoint fields may be applied in any order (40_codec R111, R119). -/

namespace Sys2Proof.Machine

/-- One setter with the value it is given. -/
abbrev Setting := (f : Field) × BitVec f.width

/-- The setter's effect on a word. -/
def Setting.apply (a : Setting) (w : Word) : Word := setField a.1 w a.2

/-- The fields lie inside the word and no two of them share a bit. -/
abbrev Apart (fs : List Field) : Prop := (∀ f ∈ fs, f.Fits) ∧ fs.Pairwise Field.Disjoint

theorem apply_comm_of_apart {settings : List Setting} (h : Apart (settings.map Sigma.fst)) :
    ∀ a ∈ settings, ∀ b ∈ settings, ∀ w, b.apply (a.apply w) = a.apply (b.apply w) := by
  obtain ⟨hfit, hdisjoint⟩ := h
  have hfits : ∀ a ∈ settings, a.1.Fits := fun a ha => hfit _ (List.mem_map_of_mem ha)
  have hcomm : settings.Pairwise fun a b => ∀ w, b.apply (a.apply w) = a.apply (b.apply w) :=
    (List.pairwise_map.mp hdisjoint).imp_of_mem fun ha hb hab w => setField_comm (hfits _ ha) (hfits _ hb) hab w _ _
  intro a ha b hb
  exact hcomm.forall_of_forall_of_flip (fun _ _ _ => rfl) (hcomm.imp fun hab w => (hab w).symm) ha hb

/-- Setters of fields that share no bit give one word in every order. -/
theorem foldl_setters_of_perm {settings : List Setting} (h : Apart (settings.map Sigma.fst)) {setters : List (Word → Word)}
    (hperm : setters.Perm (settings.map Setting.apply)) (w : Word) :
    setters.foldl (fun w set => set w) w = settings.foldl (fun w a => a.apply w) w := by
  have hcomm : ∀ f ∈ settings.map Setting.apply, ∀ g ∈ settings.map Setting.apply, ∀ w, g (f w) = f (g w) := by
    simpa only [List.forall_mem_map] using apply_comm_of_apart h
  calc setters.foldl (fun w set => set w) w
      _ = (settings.map Setting.apply).foldl (fun w set => set w) w := (hperm.symm.foldl_eq' hcomm w).symm
      _ = settings.foldl (fun w a => a.apply w) w := List.foldl_map

/-- The six setters with BUILD's operands, in BUILD's order (40_codec R119). -/
def buildSettings (scan : BitVec 4) (reset pm : BitVec 2) (chid swc cfg : Bool) : List Setting :=
  [⟨fScanMode, scan⟩, ⟨fReset, reset⟩, ⟨fPowerMode, pm⟩, ⟨fChannelIdEnable, BitVec.ofBool chid⟩,
    ⟨fSoftwareConvert, BitVec.ofBool swc⟩, ⟨fConfig, BitVec.ofBool cfg⟩]

theorem buildSettings_apart (scan : BitVec 4) (reset pm : BitVec 2) (chid swc cfg : Bool) :
    Apart ((buildSettings scan reset pm chid swc cfg).map Sigma.fst) := by
  have h : Apart [fScanMode, fReset, fPowerMode, fChannelIdEnable, fSoftwareConvert, fConfig] := by decide
  exact h

end Sys2Proof.Machine
end

section
/-! The codec's words (40_codec R101 to R104, R112 to R114), in terms of their fields and as numbers. -/

namespace Sys2Proof.Machine

/-! BUILD -/

/-- The six operands of BUILD, each as wide as its field, at their places: BUILD's word with its Boolean operands read as bits. -/
def packFields (scan : BitVec fScanMode.width) (reset : BitVec fReset.width) (pm : BitVec fPowerMode.width)
    (chid : BitVec fChannelIdEnable.width) (swc : BitVec fSoftwareConvert.width) (cfg : BitVec fConfig.width) : Word :=
  fConfig.place cfg ||| fScanMode.place scan ||| fReset.place reset ||| fPowerMode.place pm ||| fChannelIdEnable.place chid |||
    fSoftwareConvert.place swc

section
variable (scan : BitVec fScanMode.width) (reset : BitVec fReset.width) (pm : BitVec fPowerMode.width)
  (chid : BitVec fChannelIdEnable.width) (swc : BitVec fSoftwareConvert.width) (cfg : BitVec fConfig.width)

/-- Every field reads the operand placed there; CHANNEL has none (40_codec R101). -/
theorem readField_packFields :
    readField fScanMode (packFields scan reset pm chid swc cfg) = scan ∧
    readField fReset (packFields scan reset pm chid swc cfg) = reset ∧
    readField fPowerMode (packFields scan reset pm chid swc cfg) = pm ∧
    readField fChannelIdEnable (packFields scan reset pm chid swc cfg) = chid ∧
    readField fSoftwareConvert (packFields scan reset pm chid swc cfg) = swc ∧
    readField fConfig (packFields scan reset pm chid swc cfg) = cfg ∧
    readField fChannel (packFields scan reset pm chid swc cfg) = 0#fChannel.width := by
  simp (disch := decide) only [packFields, readField_or, readField_place_same, readField_place_other, BitVec.zero_or,
    BitVec.or_zero, and_self]

theorem packFields_bit_zero : (packFields scan reset pm chid swc cfg).getLsbD 0 = false := by
  simp (disch := decide) only [packFields, BitVec.getLsbD_or, place_bit_zero, Bool.or_self]

theorem packFields_eq_ofNat : packFields scan reset pm chid swc cfg = BitVec.ofNat 16
    ((cfg.toNat <<< fConfig.lo) ||| (scan.toNat <<< fScanMode.lo) ||| (reset.toNat <<< fReset.lo) |||
      (pm.toNat <<< fPowerMode.lo) ||| (chid.toNat <<< fChannelIdEnable.lo) ||| (swc.toNat <<< fSoftwareConvert.lo)) := by
  simp only [packFields, Field.place_eq_ofNat, BitVec.ofNat_or]

theorem setField_reset_packFields (reset' : BitVec fReset.width) :
    setField fReset (packFields scan reset pm chid swc cfg) reset' = packFields scan reset' pm chid swc cfg := by
  apply eq_of_readField_eq
  · simp (disch := decide) only [List.forall_mem_cons, readField_setField_same, readField_setField_other, readField_packFields,
      List.not_mem_nil, false_implies, implies_true, and_self]
  · simp (disch := decide) only [setField_bit_zero, packFields_bit_zero]

/-- From a word with CHANNEL and bit 0 clear the six setters give BUILD's word (40_codec R119). -/
theorem setFields_eq_packFields {w : Word} (hchannel : readField fChannel w = 0#fChannel.width) (hzero : w.getLsbD 0 = false) :
    setField fConfig (setField fSoftwareConvert (setField fChannelIdEnable (setField fPowerMode (setField fReset
      (setField fScanMode w scan) reset) pm) chid) swc) cfg = packFields scan reset pm chid swc cfg := by
  apply eq_of_readField_eq
  · simp (disch := decide) only [List.forall_mem_cons, readField_setField_same, readField_setField_other, readField_packFields,
      hchannel, List.not_mem_nil, false_implies, implies_true, and_self]
  · simp (disch := decide) only [setField_bit_zero, packFields_bit_zero, hzero]

end

section
variable (scan : BitVec 4) (reset pm : BitVec 2) (chid swc cfg : Bool)

theorem buildWord_eq_packFields : buildWord scan reset pm chid swc cfg =
    packFields scan reset pm (BitVec.ofBool chid) (BitVec.ofBool swc) (BitVec.ofBool cfg) := rfl

theorem buildWord_eq_ofNat : buildWord scan reset pm chid swc cfg = BitVec.ofNat 16
    ((cfg.toNat <<< 15) ||| (scan.toNat <<< 11) ||| (reset.toNat <<< 5) ||| (pm.toNat <<< 3) ||| (chid.toNat <<< 2) |||
      (swc.toNat <<< 1)) := by
  simp only [← BitVec.toNat_ofBool]
  exact packFields_eq_ofNat scan reset pm (BitVec.ofBool chid) (BitVec.ofBool swc) (BitVec.ofBool cfg)

theorem buildWord_eq_foldl_settings :
    (buildSettings scan reset pm chid swc cfg).foldl (fun w a => a.apply w) defaultWord =
      buildWord scan reset pm chid swc cfg := 
  setFields_eq_packFields _ _ _ _ _ _ (w := defaultWord) rfl rfl

/-- Another RESET operand changes the RESET field only (40_codec R103). -/
theorem setField_reset_buildWord (reset' : BitVec 2) :
    setField fReset (buildWord scan reset pm chid swc cfg) reset' = buildWord scan reset' pm chid swc cfg :=
  setField_reset_packFields ..

end

/-! WITH_CHANNEL -/

theorem clamp15_bounds (c : Int) : 0 ≤ clamp15 c ∧ clamp15 c ≤ 15 := by
  unfold clamp15
  omega

theorem clamp15_of_channel {c : Int} (h0 : 0 ≤ c) (h15 : c ≤ 15) : clamp15 c = c := by
  unfold clamp15
  omega

theorem clamp15_clamp15 (c : Int) : clamp15 (clamp15 c) = clamp15 c :=
  clamp15_of_channel (clamp15_bounds c).1 (clamp15_bounds c).2

theorem toNat_clampField (c : Int) : (clampField c).toNat = (clamp15 c).toNat := by
  obtain ⟨h0, h15⟩ := clamp15_bounds c
  rw [clampField, BitVec.toNat_ofInt]
  omega

theorem withChannel_eq_ofNat (w : Word) (ch : Int) :
    withChannel w ch = (w &&& ~~~0x0780#16) ||| BitVec.ofNat 16 ((clamp15 ch).toNat <<< 7) :=
  setField_eq_ofNat (by decide) rfl (toNat_clampField ch) w

theorem withChannel_clamp15 (w : Word) (ch : Int) : withChannel w (clamp15 ch) = withChannel w ch := by
  rw [withChannel, withChannel, clampField, clampField, clamp15_clamp15]

/-- CHANNEL of the answer is the clamp of the operand (40_codec R118). -/
theorem readField_withChannel (w : Word) (ch : Int) :
    ((readField fChannel (withChannel w ch)).toNat : Int) = clamp15 ch := by
  have hread : readField fChannel (withChannel w ch) = clampField ch := readField_setField_same (by decide) w _
  calc ((readField fChannel (withChannel w ch)).toNat : Int)
      _ = ((clampField ch).toNat : Int) := congrArg (fun v : Chan => (v.toNat : Int)) hread
      _ = clamp15 ch := by rw [toNat_clampField, Int.toNat_of_nonneg (clamp15_bounds ch).1]

/-- The old CHANNEL has no effect (40_codec R104). -/
theorem withChannel_withChannel (w : Word) (ch ch' : Int) : withChannel (withChannel w ch) ch' = withChannel w ch' :=
  setField_setField (by decide) w _ _

/-! Response words -/

theorem toNat_tagOf (w : Word) : (tagOf w).toNat = w.toNat / 4096 := by
  have h := w.isLt
  rw [tagOf, BitVec.extractLsb'_toNat, Nat.shiftRight_eq_div_pow]
  omega

theorem toNat_payloadOf (w : Word) : (payloadOf w).toNat = w.toNat % 4096 := by
  rw [payloadOf, BitVec.extractLsb'_toNat, Nat.shiftRight_zero]

theorem toNat_buildResponse (ch : Chan) (p : Payload) : (buildResponse ch p).toNat = ch.toNat * 4096 + p.toNat := by
  have hch := ch.isLt
  have hp := p.isLt
  have hor : ch.toNat <<< 12 ||| p.toNat = ch.toNat * 4096 + p.toNat := by
    rw [← Nat.shiftLeft_add_eq_or_of_lt hp, Nat.shiftLeft_eq]
  have hfits : ch.toNat <<< 12 % 2 ^ 16 = ch.toNat <<< 12 := by
    rw [Nat.shiftLeft_eq]
    omega
  rw [buildResponse, BitVec.toNat_or, BitVec.toNat_shiftLeft, BitVec.toNat_setWidth_of_le (by decide),
    BitVec.toNat_setWidth_of_le (by decide), hfits, hor]

theorem tagOf_buildResponse (ch : Chan) (p : Payload) : tagOf (buildResponse ch p) = ch := by
  have hp := p.isLt
  apply BitVec.eq_of_toNat_eq
  rw [toNat_tagOf, toNat_buildResponse]
  omega

theorem payloadOf_buildResponse (ch : Chan) (p : Payload) : payloadOf (buildResponse ch p) = p := by
  have hp := p.isLt
  apply BitVec.eq_of_toNat_eq
  rw [toNat_payloadOf, toNat_buildResponse]
  omega

theorem buildResponse_tagOf_payloadOf (w : Word) : buildResponse (tagOf w) (payloadOf w) = w := by
  apply BitVec.eq_of_toNat_eq
  rw [toNat_buildResponse, toNat_tagOf, toNat_payloadOf]
  omega

end Sys2Proof.Machine
end

section
/-! What each codec call answers (40_codec R101 to R115): in any state the codec's output and nothing else (log 11). -/

namespace Sys2Proof.Machine

theorem exec_build (scan : BitVec 4) (reset pm : BitVec 2) (chid swc cfg : Bool) (s : State) :
    exec (.build scan reset pm chid swc cfg) s = .next (s.answerCommand (buildWord scan reset pm chid swc cfg)) := rfl

theorem exec_withChannel (w : Word) (ch : Int) (s : State) :
    exec (.withChannel w ch) s = .next (s.answerCommand (withChannel w ch)) := rfl

theorem exec_setConfig (w : Word) (v : Bool) (s : State) :
    exec (.setConfig w v) s = .next (s.answerCommand (setField fConfig w (BitVec.ofBool v))) := rfl

theorem exec_setScanMode (w : Word) (v : BitVec 4) (s : State) :
    exec (.setScanMode w v) s = .next (s.answerCommand (setField fScanMode w v)) := rfl

theorem exec_setReset (w : Word) (v : BitVec 2) (s : State) :
    exec (.setReset w v) s = .next (s.answerCommand (setField fReset w v)) := rfl

theorem exec_setPowerMode (w : Word) (v : BitVec 2) (s : State) :
    exec (.setPowerMode w v) s = .next (s.answerCommand (setField fPowerMode w v)) := rfl

theorem exec_setChannelIdEnable (w : Word) (v : Bool) (s : State) :
    exec (.setChannelIdEnable w v) s = .next (s.answerCommand (setField fChannelIdEnable w (BitVec.ofBool v))) := rfl

theorem exec_setSoftwareConvert (w : Word) (v : Bool) (s : State) :
    exec (.setSoftwareConvert w v) s = .next (s.answerCommand (setField fSoftwareConvert w (BitVec.ofBool v))) := rfl

theorem exec_respondingChannel (w : Word) (s : State) :
    exec (.respondingChannel w) s = .next (s.codecAnswer (.tag (tagOf w))) := rfl

theorem exec_payload (w : Word) (s : State) : exec (.payload w) s = .next (s.codecAnswer (.data (payloadOf w))) := rfl

theorem exec_buildResponse (ch : Chan) (p : Payload) (s : State) :
    exec (.buildResponse ch p) s = .next (s.codecAnswer (.value ⟨.response, buildResponse ch p⟩)) := rfl

theorem exec_toRaw (v : WordValue) (s : State) : exec (.toRaw v) s = .next (s.codecAnswer (.raw v.bits)) := rfl

theorem exec_fromRaw (k : WordKind) (x : Word) (s : State) :
    exec (.fromRaw k x) s = .next (s.codecAnswer (.value ⟨k, x⟩)) := rfl

theorem exec_resetWord (s : State) : exec .resetWord s = .next (s.answerCommand resetWord) := rfl

theorem exec_defaultWord (s : State) : exec .defaultWord s = .next (s.answerCommand defaultWord) := rfl

/-- A command word answered, under any name of the word. -/
theorem exec_of_answerCommand {i : Instr} {s : State} {w w' : Word} (h : exec i s = .next (s.answerCommand w)) (hw : w = w') :
    exec i s = .next { s with codecOut := some (.value ⟨.command, w'⟩) } := hw ▸ h

end Sys2Proof.Machine
end

section
/-! The statements about the codec. -/

namespace Sys2Proof.CodecStatements
open Sys2Proof Sys2Proof.Machine

/-- Settles O41: WITH_CHANNEL sets the CHANNEL field to the clamp, and the clamp of a clamp is the clamp. -/
theorem withChannelClamps : Obligations.WithChannelClamps := by
  refine ⟨fun w ch s => ?answers, fun w ch => ⟨?clamped, ?reads, ?forgets⟩, by decide⟩
  case answers => exact exec_of_answerCommand (exec_withChannel w ch s) (withChannel_eq_ofNat w ch)
  case clamped => exact (withChannel_clamp15 w ch).symm
  case reads => exact readField_withChannel w ch
  case forgets => exact withChannel_withChannel w ch 0

/-- Settles O42: one arithmetic form of all setters, at each field's place and mask. -/
theorem settersClearThenOr : Obligations.SettersClearThenOr := by
  intro w b m c s
  have hbit : (BitVec.ofBool b).toNat = b.toNat := BitVec.toNat_ofBool b
  exact
    ⟨exec_of_answerCommand (exec_setConfig w b s) (setField_eq_ofNat (by decide) rfl hbit w),
      exec_of_answerCommand (exec_setScanMode w m s) (setField_eq_ofNat (by decide) rfl rfl w),
      exec_of_answerCommand (exec_setReset w c s) (setField_eq_ofNat (by decide) rfl rfl w),
      exec_of_answerCommand (exec_setPowerMode w c s) (setField_eq_ofNat (by decide) rfl rfl w),
      exec_of_answerCommand (exec_setChannelIdEnable w b s) (setField_eq_ofNat (by decide) rfl hbit w),
      exec_of_answerCommand (exec_setSoftwareConvert w b s) (setField_eq_ofNat (by decide) rfl hbit w)⟩

/-- Settles O43: a setter writes exactly the bits of its field, and different fields share none. -/
theorem settersAreIndependent : Obligations.SettersAreIndependent := by
  intro f hf w v
  have hfit := commandFields_fit f hf
  refine ⟨rfl, fun k hout => ?outside, ?reads, fun v' => ?last, ?same, ?bitZero, fun g hg hne u => ?commute⟩
  case outside => exact getLsbD_setField_outside hfit w v hout
  case reads => exact readField_setField_same hfit w v
  case last => exact setField_setField hfit w v v'
  case same => exact setField_readField hfit w
  case bitZero => exact setField_bit_zero hfit (commandFields_above_bit_zero f hf) w v
  case commute => exact setField_comm hfit (commandFields_fit g hg) (commandFields_disjoint f hf g hg hne) w v u

/-- Settles O44: cutting and joining are division and remainder by 4096. -/
theorem responseFieldsRoundTrip : Obligations.ResponseFieldsRoundTrip := by
  refine ⟨fun w s => ⟨tagOf w, toNat_tagOf w, exec_respondingChannel w s⟩,
    fun w s => ⟨payloadOf w, toNat_payloadOf w, exec_payload w s⟩, fun ch p s => ?joined,
    fun ch p => ⟨tagOf_buildResponse ch p, payloadOf_buildResponse ch p⟩, buildResponse_tagOf_payloadOf⟩
  have hword : buildResponse ch p = BitVec.ofNat 16 (ch.toNat * 4096 + p.toNat) := by
    rw [← toNat_buildResponse, BitVec.ofNat_toNat, BitVec.setWidth_eq]
  rw [exec_buildResponse, hword]
  rfl

/-- Settles O46: the word is determined by its fields and bit 0, and the six setters commute. -/
theorem commandFieldsRoundTrip : Obligations.CommandFieldsRoundTrip := by
  intro scan reset pm chid swc cfg
  obtain ⟨hscan, hreset, hpm, hchid, hswc, hcfg, hchannel⟩ :=
    readField_packFields scan reset pm (BitVec.ofBool chid) (BitVec.ofBool swc) (BitVec.ofBool cfg)
  refine ⟨hscan, hreset, hpm, hchid, hswc, hcfg, hchannel, packFields_bit_zero .., fun setters hperm => ?order⟩
  calc setters.foldl (fun w set => set w) defaultWord
      _ = (buildSettings scan reset pm chid swc cfg).foldl (fun w a => a.apply w) defaultWord :=
        foldl_setters_of_perm (buildSettings_apart ..) hperm defaultWord
      _ = buildWord scan reset pm chid swc cfg := buildWord_eq_foldl_settings ..

/-- Settles O39: BUILD's word is the sum of its operands' places; CHANNEL and bit 0 add nothing. -/
theorem buildPacksItsFields : Obligations.BuildPacksItsFields := by
  refine ⟨fun scan reset pm chid swc cfg s => ?packs, fun _ => rfl, by decide⟩
  apply exec_of_answerCommand (exec_build scan reset pm chid swc cfg s)
  simpa using buildWord_eq_ofNat scan reset pm chid swc cfg

/-- Settles O40: another code for ALL is another RESET field in the Reset word, and a setter keeps the bits outside its field. -/
theorem fixedWordsHaveTheirValues : Obligations.FixedWordsHaveTheirValues := by
  have hreset : resetWord = 0x8040 := by decide
  refine ⟨fun s => exec_of_answerCommand (exec_defaultWord s) (by decide),
    fun s => exec_of_answerCommand (exec_resetWord s) hreset, ⟨rfl, by decide⟩, by decide, hreset, fun all k h5 h6 => ?_⟩
  have hout : ¬ fReset.Covers k := by
    rintro ⟨hlo, hhi⟩
    simp only [fReset] at hlo hhi
    omega
  calc (buildWord ScanMode.none.code all PowerMode.normal.code false false true).getLsbD k
      _ = (setField fReset resetWord all).getLsbD k := congrArg (·.getLsbD k) (setField_reset_buildWord ..).symm
      _ = resetWord.getLsbD k := getLsbD_setField_outside (by decide) _ _ hout
      _ = (0x8040 : Word).getLsbD k := by rw [hreset]

/-- Settles O45: a value is its kind and its bits, so both conversions keep the bits. -/
theorem rawConversionIsIdentity : Obligations.RawConversionIsIdentity :=
  ⟨exec_toRaw, exec_fromRaw, fun _ _ => rfl, fun _ => rfl, by decide⟩

end Sys2Proof.CodecStatements
end

section
/-! The engine's words and the validation of a response by their values (41_engine R131, R132). -/

namespace Sys2Proof.Machine

theorem manualCmd_eq_ofNat (c : Int) : manualCmd c = BitVec.ofNat 16 (manualValue c) := by
  have hbase : defaultWord &&& ~~~0x0780#16 = BitVec.ofNat 16 0x0806 := by decide
  rw [manualCmd, withChannel_eq_ofNat, hbase, manualValue, BitVec.ofNat_or]

theorem sweepCmd_eq_ofNat (mode : BitVec 4) (n : Nat) : sweepCmd mode n = BitVec.ofNat 16 (sweepValue mode n) := by
  have hbase : ∀ m : BitVec 4, buildWord m ResetScope.none.code PowerMode.normal.code true true false &&& ~~~0x0780#16 =
      BitVec.ofNat 16 ((m.toNat <<< 11) ||| 0x0006) := by decide
  rw [sweepCmd, withChannel_eq_ofNat, hbase, sweepValue, ← BitVec.ofNat_or, Nat.or_right_comm]

theorem resetWord_eq : resetWord = 0x8040 := by decide

theorem tagMatches_iff (rx : Word) (e : Int) : tagMatches rx e = true ↔ ((rx.toNat / 4096 : Nat) : Int) = e := by
  rw [tagMatches, decide_eq_true_iff, toNat_tagOf]

theorem toNat_validate (rx : Word) (e : Int) : (validate rx e).toNat = checkedValue rx e := by
  simp only [validate, checkedValue, tagMatches_iff]
  split
  · exact toNat_payloadOf rx
  · rfl

theorem validate_eq_ofNat (rx : Word) (e : Int) : validate rx e = BitVec.ofNat 12 (checkedValue rx e) := by
  rw [← toNat_validate, BitVec.ofNat_toNat, BitVec.setWidth_eq]

end Sys2Proof.Machine
end

section
/-! What one more harvest adds to the trace, the slots and OK of a read operation (42_sequencer R166). -/

namespace Sys2Proof.Machine

/-- One more transfer adds its events at the end (41_engine R133). -/
theorem transfersEvents_append_singleton {txs rxs : List Word} (h : txs.length = rxs.length) (tx rx : Word) :
    transfersEvents (txs ++ [tx]) (rxs ++ [rx]) = transfersEvents txs rxs ++ transferEvents tx rx := by
  simp [transfersEvents, List.zipWith_append h]

@[simp] theorem response_cons_succ (r0 : Word) (rxs : List Word) (k : Nat) :
    response (r0 :: rxs) (k + 1) = rxs.getD k 0 := rfl

theorem validatedSlots_zero (rxs : List Word) (e : Nat → Int) (slot : Vector Payload 32) :
    validatedSlots 0 rxs e slot = slot := by
  apply Vector.ext
  intro i hi
  simp [validatedSlots]

theorem getElem_validatedSlots (count : Nat) (rxs : List Word) (e : Nat → Int) (slot : Vector Payload 32) {i : Nat}
    (hi : i < 32) :
    (validatedSlots count rxs e slot)[i] = if i < count then validate (response rxs (i + 1)) (e i) else slot[i] := by
  simp [validatedSlots]

theorem validatedSlots_congr {count : Nat} {e e' : Nat → Int} (h : ∀ i < count, e i = e' i) (rxs : List Word)
    (slot : Vector Payload 32) : validatedSlots count rxs e slot = validatedSlots count rxs e' slot := by
  apply Vector.ext
  intro i hi
  rw [getElem_validatedSlots, getElem_validatedSlots]
  split
  · next hlt => rw [h i hlt]
  · rfl

/-- The harvest of one more response fills the next slot and no other. -/
theorem validatedSlots_append_singleton (r0 rx : Word) {rxs : List Word} {k : Count} (hk : k.toNat = rxs.length)
    (e : Nat → Int) (slot : Vector Payload 32) :
    validatedSlots (rxs ++ [rx]).length (r0 :: (rxs ++ [rx])) e slot =
      (validatedSlots rxs.length (r0 :: rxs) e slot).set k.toNat (validate rx (e rxs.length)) k.isLt := by
  apply Vector.ext
  intro i hi
  simp only [Vector.getElem_set, getElem_validatedSlots, response_cons_succ, hk, List.length_append, List.length_singleton]
  rcases Nat.lt_trichotomy i rxs.length with hlt | rfl | hgt
  · rw [if_pos (by omega), if_neg (by omega), if_pos hlt, List.getD_append _ _ _ _ hlt]
  · simp
  · rw [if_neg (by omega), if_neg (by omega), if_neg (by omega)]

/-- Every harvest response carries its index as its tag, what READ_ALL's OK asks for (41_engine R138). -/
def allTagged (rxs : List Word) : Bool := (List.range rxs.length).all fun i => tagMatches (rxs.getD i 0) i

theorem allTagged_iff (rxs : List Word) : allTagged rxs = true ↔ ∀ i < rxs.length, tagMatches (rxs.getD i 0) i = true := by
  simp only [allTagged, List.all_eq_true, List.mem_range]

theorem allTagged_append_singleton (rxs : List Word) (rx : Word) :
    allTagged (rxs ++ [rx]) = (allTagged rxs && tagMatches rx rxs.length) := by
  have hold : ∀ i < rxs.length, (rxs ++ [rx]).getD i 0 = rxs.getD i 0 := fun i hi => List.getD_append _ _ _ _ hi
  have hnew : (rxs ++ [rx]).getD rxs.length 0 = rx := by simp
  rw [Bool.eq_iff_iff, Bool.and_eq_true, allTagged_iff, allTagged_iff, List.length_append, List.length_singleton,
    Nat.forall_lt_succ_right, hnew]
  exact and_congr_left fun _ => forall₂_congr fun i hi => by rw [hold i hi]

/-- OK of an operation whose harvests returned `rxs` (42_sequencer R165, R166). -/
def okAfter (op : Op) (rxs : List Word) (ok : Bool) : Bool := if op = .readAll then allTagged rxs else ok

theorem okAfter_nil (op : Op) (ok : Bool) : okAfter op [] ok = okPrimed op ok := by
  cases op <;> rfl

theorem okAfter_append_singleton (op : Op) {rxs : List Word} {i : Count} (hi : i.toNat = rxs.length) (rx : Word) (ok : Bool) :
    okAfter op (rxs ++ [rx]) ok = okHarvested op i rx (okAfter op rxs ok) := by
  cases op
  case readAll => simp [okAfter, okHarvested, allTagged_append_singleton, hi]
  case init | readChannel | readRange => rfl

end Sys2Proof.Machine
end

section
/-! A read operation that runs on the answers at hand, harvest by harvest (42_sequencer R162, R165, R166). -/

namespace Sys2Proof.Machine

/-- A count that fits its port is what the port carries (00_scope R8). -/
theorem toNat_ofNat_count {n : Nat} (hn : n < 32) : (BitVec.ofNat 5 n : Count).toNat = n := Nat.mod_eq_of_lt hn

theorem total_lt (op : Op) (n : Count) : total op n < 32 := by
  cases op
  case init | readChannel => simp [total]
  case readRange | readAll => exact n.isLt

/-- IDX holds the number of every harvest still to be made. -/
theorem toNat_ofNat_harvest {op : Op} {n : Count} {k : Nat} (hk : k < total op n) : (BitVec.ofNat 5 k : Count).toNat = k :=
  toNat_ofNat_count (hk.trans (total_lt op n))

theorem answers_append_singleton (r0 rx : Word) (rxs : List Word) (rest : List Input) :
    answers (r0 :: (rxs ++ [rx])) ++ rest = answers (r0 :: rxs) ++ .answer rx :: rest := by
  simp [answers]

/-- The words of the priming transfer and the first `k` harvest transfers (R167). -/
def requestWords (mode : BitVec 4) (op : Op) (a : SignedOp) (n : Count) (k : Nat) : List Word :=
  primeCmd mode op a n :: (List.range k).map fun i => steadyCmd mode op a n (BitVec.ofNat 5 i)

@[simp] theorem length_requestWords (mode : BitVec 4) (op : Op) (a : SignedOp) (n : Count) (k : Nat) :
    (requestWords mode op a n k).length = k + 1 := by
  simp [requestWords]

theorem requestWords_succ (mode : BitVec 4) (op : Op) (a : SignedOp) (n : Count) (k : Nat) :
    requestWords mode op a n (k + 1) = requestWords mode op a n k ++ [steadyCmd mode op a n (BitVec.ofNat 5 k)] := by
  simp [requestWords, List.range_succ]

/-- What a harvest transfer does to the state, apart from ending the operation (R166). -/
def harvest (rx : Word) (s : State) : State :=
  { (xfer (steadyCmd s.readAllScanMode s.op s.a s.n s.idx) rx s).setSlot s.idx (validate rx (expected s.op s.a s.idx)) with
    ok := okHarvested s.op s.idx rx s.ok
    idx := s.idx + 1 }

@[simp] theorem harvest_slot (rx : Word) (s : State) :
    (harvest rx s).slot = s.slot.set s.idx.toNat (validate rx (expected s.op s.a s.idx)) s.idx.isLt := rfl
@[simp] theorem harvest_idx (rx : Word) (s : State) : (harvest rx s).idx = s.idx + 1 := rfl
@[simp] theorem harvest_ok (rx : Word) (s : State) : (harvest rx s).ok = okHarvested s.op s.idx rx s.ok := rfl
@[simp] theorem harvest_lastCmd (rx : Word) (s : State) :
    (harvest rx s).lastCmd = steadyCmd s.readAllScanMode s.op s.a s.n s.idx := rfl
@[simp] theorem harvest_trace (rx : Word) (s : State) : (harvest rx s).trace =
    s.trace ++ frameEvents s.inXfer (steadyCmd s.readAllScanMode s.op s.a s.n s.idx) rx := rfl

theorem transfer_eq_harvest (rx : Word) {s : State} (h : s.st = .steady) (ht : s.idx.toNat + 1 ≠ total s.op s.n) :
    transfer rx s = harvest rx s := transfer_of_steady_more rx h ht

theorem transfer_eq_finish_harvest (rx : Word) {s : State} (h : s.st = .steady) (ht : s.idx.toNat + 1 = total s.op s.n) :
    transfer rx s = finish { harvest rx s with len := BitVec.ofNat 5 (total s.op s.n) } := transfer_of_steady_last rx h ht

/-- A read operation accepted in `s`, its priming transfer answered by `r0` and its harvests so far by `rxs`; `ins` is what
the outside does next. -/
def afterHarvests (op : Op) (a : SignedOp) (n : Count) (r0 : Word) (rxs : List Word) (s : State) (ins : List Input) : State :=
  { s with
    st := .steady
    op := op
    a := a
    n := n
    idx := BitVec.ofNat 5 rxs.length
    ok := okAfter op rxs s.ok
    slot := validatedSlots rxs.length (r0 :: rxs) (fun i => expected op a (BitVec.ofNat 5 i)) s.slot
    lastCmd := (requestWords s.readAllScanMode op a n rxs.length).getLastD 0
    inXfer := false
    inputs := ins
    trace := s.trace ++ [.txnBegin] ++ transfersEvents (requestWords s.readAllScanMode op a n rxs.length) (r0 :: rxs) }

section
variable (op : Op) (a : SignedOp) (n : Count) (r0 : Word) (s : State) (rxs : List Word) (ins : List Input)

@[simp] theorem afterHarvests_slot : (afterHarvests op a n r0 rxs s ins).slot =
    validatedSlots rxs.length (r0 :: rxs) (fun i => expected op a (BitVec.ofNat 5 i)) s.slot := rfl
@[simp] theorem afterHarvests_idx : (afterHarvests op a n r0 rxs s ins).idx = BitVec.ofNat 5 rxs.length := rfl
@[simp] theorem afterHarvests_ok : (afterHarvests op a n r0 rxs s ins).ok = okAfter op rxs s.ok := rfl
@[simp] theorem afterHarvests_lastCmd : (afterHarvests op a n r0 rxs s ins).lastCmd =
    (requestWords s.readAllScanMode op a n rxs.length).getLastD 0 := rfl
@[simp] theorem afterHarvests_op : (afterHarvests op a n r0 rxs s ins).op = op := rfl
@[simp] theorem afterHarvests_a : (afterHarvests op a n r0 rxs s ins).a = a := rfl
@[simp] theorem afterHarvests_n : (afterHarvests op a n r0 rxs s ins).n = n := rfl
@[simp] theorem afterHarvests_readAllScanMode :
    (afterHarvests op a n r0 rxs s ins).readAllScanMode = s.readAllScanMode := by rw [afterHarvests]
@[simp] theorem afterHarvests_inXfer : (afterHarvests op a n r0 rxs s ins).inXfer = false := rfl
@[simp] theorem afterHarvests_trace : (afterHarvests op a n r0 rxs s ins).trace =
    s.trace ++ [.txnBegin] ++ transfersEvents (requestWords s.readAllScanMode op a n rxs.length) (r0 :: rxs) := rfl
theorem afterHarvests_with_inputs (ins' : List Input) :
    { afterHarvests op a n r0 rxs s ins with inputs := ins' } = afterHarvests op a n r0 rxs s ins' := by
  simp only [afterHarvests]

end

section
variable (op : Op) (a : SignedOp) (n : Count) (r0 : Word) (s : State)

/-- The state after the priming transfer, before it is known whether there is anything to harvest (R165). -/
theorem primed_eq_afterHarvests_nil (ins : List Input) :
    { xfer (primeCmd s.readAllScanMode op a n) r0 { acceptRead op a n s with inputs := ins } with
        ok := okPrimed op s.ok, st := .steady } = afterHarvests op a n r0 [] s ins := by
  rw [afterHarvests, List.length_nil, validatedSlots_zero, okAfter_nil]
  rfl

theorem transfer_acceptRead_more (ht : total op n ≠ 0) (ins : List Input) :
    transfer r0 { acceptRead op a n s with inputs := ins } = afterHarvests op a n r0 [] s ins := by
  rw [transfer_of_priming_more r0 rfl ht, ← primed_eq_afterHarvests_nil]
  rfl

theorem transfer_acceptRead_empty (ht : total op n = 0) (ins : List Input) :
    transfer r0 { acceptRead op a n s with inputs := ins } =
      finish { afterHarvests op a n r0 [] s ins with len := 0 } := by
  rw [transfer_of_priming_empty r0 rfl ht, ← primed_eq_afterHarvests_nil]
  rfl

/-- One more harvest. -/
theorem harvest_afterHarvests (rx : Word) {rxs : List Word} (hleft : rxs.length < total op n) (ins : List Input) :
    harvest rx (afterHarvests op a n r0 rxs s ins) = afterHarvests op a n r0 (rxs ++ [rx]) s ins := by
  have hidx := toNat_ofNat_harvest hleft
  have hlength : (rxs ++ [rx]).length = rxs.length + 1 := by simp
  apply State.ext
  case slot => simp only [harvest_slot, afterHarvests_slot, afterHarvests_op, afterHarvests_a, afterHarvests_idx,
    validatedSlots_append_singleton r0 rx hidx]
  case idx => simp only [harvest_idx, afterHarvests_idx, hlength, BitVec.ofNat_add]; rfl
  case ok => simp only [harvest_ok, afterHarvests_ok, afterHarvests_op, afterHarvests_idx,
    okAfter_append_singleton op hidx]
  case lastCmd => simp [hlength, requestWords_succ]
  case trace =>
    have hevents := transfersEvents_append_singleton (txs := requestWords s.readAllScanMode op a n rxs.length)
      (rxs := r0 :: rxs) (by simp) (steadyCmd s.readAllScanMode op a n (BitVec.ofNat 5 rxs.length)) rx
    rw [List.cons_append] at hevents
    simp [hlength, requestWords_succ, hevents, transferEvents]
  all_goals simp [harvest, afterHarvests]

/-- A harvest that is not the last (R166). -/
theorem transfer_afterHarvests_more (rx : Word) {rxs : List Word} (hmore : rxs.length + 1 < total op n)
    (ins ins' : List Input) :
    transfer rx { afterHarvests op a n r0 rxs s ins with inputs := ins' } =
      afterHarvests op a n r0 (rxs ++ [rx]) s ins' := by
  have hleft : rxs.length < total op n := by omega
  have hne : (BitVec.ofNat 5 rxs.length).toNat + 1 ≠ total op n := by
    rw [toNat_ofNat_harvest hleft]
    omega
  rw [afterHarvests_with_inputs, transfer_eq_harvest rx rfl hne, harvest_afterHarvests op a n r0 s rx hleft]

/-- The last harvest ends the operation (R166). -/
theorem transfer_afterHarvests_last (rx : Word) {rxs : List Word} (hlast : rxs.length + 1 = total op n)
    (ins ins' : List Input) :
    transfer rx { afterHarvests op a n r0 rxs s ins with inputs := ins' } =
      finish { afterHarvests op a n r0 (rxs ++ [rx]) s ins' with len := BitVec.ofNat 5 (total op n) } := by
  have hleft : rxs.length < total op n := by omega
  have heq : (BitVec.ofNat 5 rxs.length).toNat + 1 = total op n := by rw [toNat_ofNat_harvest hleft, hlast]
  rw [afterHarvests_with_inputs, transfer_eq_finish_harvest rx rfl heq, harvest_afterHarvests op a n r0 s rx hleft]
  rfl

/-- As long as harvests are left, the operation takes the answers at hand one by one. -/
theorem runOnAnswers_acceptRead_more {rxs : List Word} (hmore : rxs.length < total op n) (rest : List Input) :
    runOnAnswers (answers (r0 :: rxs) ++ rest) (acceptRead op a n s) =
      runOnAnswers rest (afterHarvests op a n r0 rxs s rest) := by
  induction rxs using List.reverseRecOn generalizing rest with
  | nil =>
    change runOnAnswers (.answer r0 :: rest) _ = _
    rw [runOnAnswers_busy rfl rest rfl, transfer_acceptRead_more op a n r0 s (by omega)]
  | append_singleton rxs rx ih =>
    rw [List.length_append, List.length_singleton] at hmore
    rw [answers_append_singleton, ih (by omega), runOnAnswers_busy rfl rest rfl,
      transfer_afterHarvests_more op a n r0 s rx hmore]

/-- With the answer to every harvest at hand the operation is complete (R165, R166). -/
theorem runOnAnswers_acceptRead_all {rxs : List Word} (hall : rxs.length = total op n) (rest : List Input) :
    runOnAnswers (answers (r0 :: rxs) ++ rest) (acceptRead op a n s) =
      finish { afterHarvests op a n r0 rxs s rest with len := BitVec.ofNat 5 (total op n) } := by
  rcases List.eq_nil_or_concat' rxs with rfl | ⟨before, rx, rfl⟩
  · have hnone : total op n = 0 := hall.symm
    change runOnAnswers (.answer r0 :: rest) _ = _
    rw [runOnAnswers_busy rfl rest rfl, transfer_acceptRead_empty op a n r0 s hnone, hnone]
    exact runOnAnswers_of_not_busy rest rfl
  · rw [List.length_append, List.length_singleton] at hall
    rw [answers_append_singleton, runOnAnswers_acceptRead_more op a n r0 s (by omega), runOnAnswers_busy rfl rest rfl,
      transfer_afterHarvests_last op a n r0 s rx hall]
    exact runOnAnswers_of_not_busy rest rfl

end

end Sys2Proof.Machine
end

section
/-! The transfer level ends as the operation level says (42_sequencer R172), request by request. -/

namespace Sys2Proof.Machine

theorem accepts_init {s : State} (h : s.st = .uninit ∨ s.st = .idle) : accepts s.st .init = true := by
  rcases h with h | h <;> rw [h] <;> rfl

theorem accept_read {op : Op} (hop : op ≠ .init) (a : SignedOp) (n : Count) (s : State) :
    accept op a n s = acceptRead op a n s := by
  cases op
  case init => exact absurd rfl hop
  case readChannel | readRange | readAll => rfl

/-! What the transfers made send and leave, for each operation -/

theorem requestWords_readRange (mode : BitVec 4) (a : SignedOp) (n : Count) :
    requestWords mode .readRange a n n.toNat = rangeWords a.toInt n.toNat := by
  rw [requestWords, rangeWords]
  refine congrArg _ (List.map_congr_left fun i hi => ?_)
  rw [steadyCmd, toNat_ofNat_count ((List.mem_range.mp hi).trans n.isLt)]

theorem requestWords_readAll (mode : BitVec 4) (a : SignedOp) (n : Count) (k : Nat) :
    requestWords mode .readAll a n k = List.replicate (k + 1) (sweepCmd mode n.toNat) := by
  simp [requestWords, primeCmd, steadyCmd, List.replicate_succ]

theorem validatedSlots_one (r0 r1 : Word) (e : Nat → Int) (slot : Vector Payload 32) :
    validatedSlots 1 [r0, r1] e slot = slot.set 0 (validate r1 (e 0)) := by
  have h := validatedSlots_append_singleton r0 r1 (rxs := []) (k := 0) rfl e slot
  rwa [List.length_nil, validatedSlots_zero] at h

theorem validatedSlots_toNat_ofNat (n : Count) (rxs : List Word) (e : Nat → Int) (slot : Vector Payload 32) :
    validatedSlots n.toNat rxs (fun i => e (BitVec.ofNat 5 i).toNat) slot = validatedSlots n.toNat rxs e slot :=
  validatedSlots_congr (fun i hi => by rw [toNat_ofNat_count (hi.trans n.isLt)]) rxs slot

section
variable (a : SignedOp) (n : Count) {s : State} {rest : List Input}

/-- INIT takes the one answer at hand and ends (41_engine R134). -/
theorem present_init (hst : s.st = .uninit ∨ s.st = .idle) {rx : Word} (hin : s.inputs = answers [rx] ++ rest) :
    present .init a n s = { operation .init a n [rx] s with inputs := rest } := by
  have hcfg : acceptInit a n s = { s with
      st := .init, op := .init, a := a, n := n, inXfer := false
      trace := s.trace ++ [.csDeassert, .settle, .configure s.cfg.clockHz .msbFirst .mode3, .txnBegin] } := by
    unfold acceptInit
    cases s.cfg.bitOrder
    cases s.cfg.mode
    rfl
  rw [present_accepted (accepts_init hst), hin]
  change runOnAnswers (.answer rx :: rest) (acceptInit a n s) = _
  rw [runOnAnswers_busy rfl rest rfl, transfer_of_init rx rfl, runOnAnswers_of_not_busy rest rfl, hcfg]
  rfl

/-- A read operation with an answer to each of its exchanges at hand runs to its end (42_sequencer R162, R165, R166). -/
theorem present_read {op : Op} (hop : op ≠ .init) (hst : s.st = .idle) {r0 : Word} {rxs : List Word}
    (hall : rxs.length = total op n) (hin : s.inputs = answers (r0 :: rxs) ++ rest) :
    present op a n s = finish { afterHarvests op a n r0 rxs s rest with len := BitVec.ofNat 5 (total op n) } := by
  have haccepts : accepts s.st op = true := by rw [hst]; rfl
  rw [present_accepted haccepts, hin, accept_read hop, runOnAnswers_acceptRead_all op a n r0 s hall]

theorem present_readChannel (hst : s.st = .idle) {r0 r1 : Word} (hin : s.inputs = answers [r0, r1] ++ rest) :
    present .readChannel a n s = { operation .readChannel a n [r0, r1] s with inputs := rest } := by
  rw [present_read a n (by decide) hst rfl hin]
  apply State.ext
  case slot => simp [operation, operationReadChannel, validatedSlots_one, response, expected]
  case trace => simp [operation, operationReadChannel, requestWords, primeCmd, steadyCmd]
  all_goals simp [afterHarvests, operation, operationReadChannel, okAfter, total, requestWords, steadyCmd]

theorem present_readRange (hst : s.st = .idle) {r0 : Word} {rxs : List Word} (hall : rxs.length = n.toNat)
    (hin : s.inputs = answers (r0 :: rxs) ++ rest) :
    present .readRange a n s = { operation .readRange a n (r0 :: rxs) s with inputs := rest } := by
  rw [present_read a n (by decide) hst hall hin]
  apply State.ext
  case slot =>
    simp only [finish_slot, afterHarvests_slot, hall]
    exact validatedSlots_toNat_ofNat n (r0 :: rxs) (fun i => a.toInt + i) s.slot
  all_goals simp [afterHarvests, operation, operationReadRange, okAfter, total, hall, requestWords_readRange]

theorem present_readAll (hst : s.st = .idle) {r0 : Word} {rxs : List Word} (hall : rxs.length = n.toNat)
    (hin : s.inputs = answers (r0 :: rxs) ++ rest) :
    present .readAll a n s = { operation .readAll a n (r0 :: rxs) s with inputs := rest } := by
  rw [present_read a n (by decide) hst hall hin]
  apply State.ext
  case slot =>
    simp only [finish_slot, afterHarvests_slot, hall]
    exact validatedSlots_toNat_ofNat n (r0 :: rxs) (fun i => i) s.slot
  case lastCmd =>
    simp [operation, operationReadAll, requestWords_readAll, List.replicate_succ']
  all_goals simp [afterHarvests, operation, operationReadAll, okAfter, allTagged, total, hall, requestWords_readAll]

end

end Sys2Proof.Machine
end

section
/-! The engine's four operations, complete (41_engine R134, R136 to R138). -/

namespace Sys2Proof.EngineStatements
open Sys2Proof Sys2Proof.Machine

/-! Operands at their ports (00_scope R8) -/

theorem toInt_ofInt_operand {c : Int} (hlo : -128 ≤ c) (hhi : c ≤ 127) : (BitVec.ofInt 8 c : SignedOp).toInt = c :=
  BitVec.toInt_ofInt_eq_self (by decide) (by omega) (by omega)

/-! What the operation level leaves, by values -/

theorem rangeWords_eq_ofNat (start : Int) (count : Nat) : rangeWords start count =
    BitVec.ofNat 16 (manualValue start) ::
      (List.range count).map fun (i : Nat) => BitVec.ofNat 16 (manualValue ((start + i + 1) % 16)) := by
  simp only [rangeWords, mod16, manualCmd_eq_ofNat]

theorem getLastD_rangeWords (start : Int) (count : Nat) : (rangeWords start count).getLastD 0 =
    BitVec.ofNat 16 (if count = 0 then manualValue start else manualValue ((start + count) % 16)) := by
  cases count with
  | zero => exact manualCmd_eq_ofNat start
  | succ k =>
    have hlast : start + k + 1 = start + (k + 1 : Nat) := by omega
    rw [rangeWords, List.range_succ, List.map_append, ← List.cons_append, List.map_singleton, List.getLastD_concat,
      manualCmd_eq_ofNat, mod16, hlast, if_neg (Nat.succ_ne_zero k)]

/-- A slot below the count holds the checked value of its response, and the others are kept (R132, R137, R138). -/
theorem toNat_validatedSlots (count : Nat) (r0 : Word) (rxs : List Word) (e : Nat → Int) (slot : Vector Payload 32)
    (i : Fin 32) : (validatedSlots count (r0 :: rxs) e slot)[i].toNat =
      if i.val < count then checkedValue (rxs.getD i.val 0) (e i.val) else slot[i].toNat := by
  rw [Fin.getElem_fin, Fin.getElem_fin, getElem_validatedSlots, response_cons_succ]
  split
  · exact toNat_validate ..
  · rfl

/-- Settles O10: the one transfer's answer is recorded in the trace and read nowhere else. -/
theorem initCompletes : Obligations.InitCompletes := by
  intro s a n rx rest hst hin
  calc exec (.init a n) s
      _ = .next (present .init (BitVec.ofInt 8 a) (BitVec.ofNat 5 n) s) := rfl
      _ = .next { operationInit (BitVec.ofInt 8 a) (BitVec.ofNat 5 n) [rx] s with inputs := rest } := by
        rw [present_init _ _ hst hin, operation]
      _ = _ := by
        rw [operationInit, resetWord_eq, List.append_assoc, List.append_assoc]
        rfl

/-- Settles O11: the engine runs as the operation level says, its words and slot read by their values. -/
theorem readChannelCompletes : Obligations.ReadChannelCompletes := by
  intro s ch n r0 r1 rest hst hlo hhi hin
  calc exec (.readChannel ch n) s
      _ = .next (present .readChannel (BitVec.ofInt 8 ch) (BitVec.ofNat 5 n) s) := rfl
      _ = .next { operationReadChannel (BitVec.ofInt 8 ch) (BitVec.ofNat 5 n) [r0, r1] s with inputs := rest } := by
        rw [present_readChannel _ _ hst hin, operation]
      _ = _ := by
        rw [operationReadChannel, toInt_ofInt_operand hlo hhi, manualCmd_eq_ofNat, validate_eq_ofNat, List.append_assoc,
          List.append_assoc]
        rfl

/-- Settles O12: the operation level's slots are checked one by one; `start` and `count` fit their ports. -/
theorem readRangeFillsItsSlots : Obligations.ReadRangeFillsItsSlots := by
  intro s start count r0 rxs rest hst hlo hhi hcount hlength hin
  have hstart := toInt_ofInt_operand hlo hhi
  have hn := toNat_ofNat_count hcount
  refine ⟨validatedSlots count (r0 :: rxs) (fun i => start + i) s.slot, (rangeWords start count).getLastD 0, ?runs,
    toNat_validatedSlots count r0 rxs _ s.slot, getLastD_rangeWords start count⟩
  rw [← rangeWords_eq_ofNat]
  calc exec (.readRange start count) s
      _ = .next (present .readRange (BitVec.ofInt 8 start) (BitVec.ofNat 5 count) s) := rfl
      _ = .next { operationReadRange (BitVec.ofInt 8 start) (BitVec.ofNat 5 count) (r0 :: rxs) s with inputs := rest } := by
        rw [present_readRange _ _ hst (hlength.trans hn.symm) hin, operation]
      _ = _ := by rw [operationReadRange, hstart, hn]

/-- Settles O13: as O12, with one request word throughout and OK the conjunction of the tag checks. -/
theorem readAllFillsItsSlotsAndFlag : Obligations.ReadAllFillsItsSlotsAndFlag := by
  refine ⟨rfl, fun s size a r0 rxs rest hst hsize hlength hin => ?_⟩
  have hn := toNat_ofNat_count hsize
  refine ⟨validatedSlots size (r0 :: rxs) (fun i => i) s.slot,
    (List.range size).all fun i => tagMatches (response (r0 :: rxs) (i + 1)) i, ?runs,
    toNat_validatedSlots size r0 rxs _ s.slot, ?flag⟩
  case runs =>
    rw [← sweepCmd_eq_ofNat]
    calc exec (.readAll size a) s
        _ = .next (present .readAll (BitVec.ofInt 8 a) (BitVec.ofNat 5 size) s) := rfl
        _ = .next { operationReadAll (BitVec.ofNat 5 size) (BitVec.ofInt 8 a) (r0 :: rxs) s with inputs := rest } := by
          rw [present_readAll _ _ hst (hlength.trans hn.symm) hin, operation]
        _ = _ := by rw [operationReadAll, hn]
  case flag =>
    simp only [List.all_eq_true, List.mem_range, tagMatches_iff, response_cons_succ, Int.natCast_inj]

end Sys2Proof.EngineStatements
end

section
/-! The request port: which words are ready, and what a step does with a word presented there (42_sequencer R161, 30_encoding
R80, R85). -/

namespace Sys2Proof.Machine

/-- A call that decodes runs its operation. -/
theorem step_of_call {s : State} {p : Port} {ws : List Word} {rest : List Input} {i : Instr}
    (h : s.inputs = .call p ws :: rest) (hd : decode p ws = .ok i) : step s = exec i (s.consume rest) := by
  simp only [step, h, hd]

/-- A request's operands reach the latches as the port carries them. -/
theorem exec_requestInstr (op : Op) (a : SignedOp) (n : Count) (s : State) :
    exec (requestInstr op a n) s = .next (present op a n s) := by
  have hports : exec (requestInstr op a n) s =
      .next (present op (BitVec.ofInt 8 a.toInt) (BitVec.ofNat 5 n.toNat) s) := by cases op <;> rfl
  rw [hports, BitVec.ofInt_toInt, BitVec.ofNat_toNat, BitVec.setWidth_eq]

theorem decode_request_reserved {q : Word} (h : q.getLsbD 13 = true) : decode .request [q] = .error .reservedRequestBit := by
  simp only [decode, decodeOne, decodeRequest, h, if_true]

theorem decode_request_of_not_reserved {q : Word} (h : q.getLsbD 13 = false) : decode .request [q] =
    .ok (requestInstr (Op.ofCode (q.extractLsb' 14 2)) (q.extractLsb' 0 8) (q.extractLsb' 8 5)) := by
  simp only [decode, decodeOne, decodeRequest, h, Bool.false_eq_true, if_false]

/-- The table of R161, row by row. -/
theorem accepts_iff (st : SeqState) (op : Op) : accepts st op = true ↔ st = .idle ∨ (st = .uninit ∧ op = .init) := by
  cases st
  case uninit | idle | init | priming | steady => simp [accepts]

theorem ofCode_eq_init_iff (c : BitVec 2) : Op.ofCode c = .init ↔ c = 0 := by
  revert c
  decide

/-- The reserved bit of a request word by its value (30_encoding R85). -/
theorem reservedBit_eq_false_iff (q : Word) : q.getLsbD 13 = false ↔ q.toNat / 8192 % 2 = 0 := by
  have hbit : q.getLsbD 13 = decide (q.toNat / 8192 % 2 = 1) := Nat.testBit_eq_decide_div_mod_eq
  rw [hbit, decide_eq_false_iff_not]
  omega

/-- A request word asks for INIT exactly when its two top bits are 0 (30_encoding R80). -/
theorem requestOp_eq_init_iff (q : Word) : Op.ofCode (q.extractLsb' 14 2) = .init ↔ q.toNat / 16384 = 0 := by
  have hcode : (q.extractLsb' 14 2).toNat = q.toNat / 16384 := by
    rw [BitVec.extractLsb'_toNat, Nat.shiftRight_eq_div_pow]
    omega
  rw [ofCode_eq_init_iff, BitVec.toNat_eq, hcode]
  rfl

theorem reqReady_iff (s : State) (q : Word) :
    s.reqReady q = true ↔ q.getLsbD 13 = false ∧ accepts s.st (Op.ofCode (q.extractLsb' 14 2)) = true := by
  simp only [State.reqReady, Bool.and_eq_true, Bool.not_eq_true']

/-- A request word that is not ready is taken from the script, whether the reserved bit or the position refuses it, and nothing
else comes of it (60_exceptions R186). -/
theorem step_of_not_ready {s : State} {q : Word} {rest : List Input} (hready : s.reqReady q = false)
    (hin : s.inputs = .call .request [q] :: rest) : step s = .next (s.consume rest) := by
  cases hbit : q.getLsbD 13 with
  | true => exact step_of_rejected hin (decode_request_reserved hbit)
  | false =>
    have hrefused : accepts (s.consume rest).st (Op.ofCode (q.extractLsb' 14 2)) = false :=
      Bool.eq_false_iff.mpr fun haccepts => Bool.eq_false_iff.mp hready ((reqReady_iff s q).mpr ⟨hbit, haccepts⟩)
    rw [step_of_call hin (decode_request_of_not_reserved hbit), exec_requestInstr, present_refused hrefused]

end Sys2Proof.Machine
end

section
/-! The sequencer's statements: readiness (42_sequencer R161) and the agreement of the two levels (R172). -/

namespace Sys2Proof.Machine

/-- R172 over all four operations: each has an answer at hand for every one of its exchanges. -/
theorem present_eq_operation {s : State} {op : Op} (a : SignedOp) (n : Count) {rxs : List Word} {rest : List Input}
    (hst : s.st = .idle ∨ (s.st = .uninit ∧ op = .init)) (hlength : rxs.length = total op n + 1)
    (hin : s.inputs = answers rxs ++ rest) : present op a n s = { operation op a n rxs s with inputs := rest } := by
  obtain ⟨r0, harvests, rfl⟩ := List.exists_cons_of_length_eq_add_one hlength
  have hall : harvests.length = total op n := Nat.succ.inj hlength
  have hidle (hread : op ≠ .init) : s.st = .idle := hst.resolve_right fun h => hread h.2
  cases op with
  | init =>
    obtain rfl : harvests = [] := List.length_eq_zero_iff.mp hall
    exact present_init a n (hst.symm.imp_left And.left) hin
  | readChannel =>
    obtain ⟨r1, rfl⟩ := List.length_eq_one_iff.mp hall
    exact present_readChannel a n (hidle (by decide)) hin
  | readRange => exact present_readRange a n (hidle (by decide)) hall hin
  | readAll => exact present_readAll a n (hidle (by decide)) hall hin

end Sys2Proof.Machine

namespace Sys2Proof.SequencerStatements
open Sys2Proof Sys2Proof.Machine

/-- Settles O7: the table read by the word's value, and a word refused by its reserved bit or by the position. -/
theorem readinessTableAndRefusals : Obligations.ReadinessTableAndRefusals := by
  intro s q
  refine ⟨?table, fun hready rest hin => step_of_not_ready hready hin⟩
  rw [reqReady_iff, accepts_iff, reservedBit_eq_false_iff, requestOp_eq_init_iff]

/-- Settles O14: the request is presented with its operands, and its run ends as the operation level says. -/
theorem operationAndTransferLevelsAgree : Obligations.OperationAndTransferLevelsAgree := by
  intro s op a n rxs rest hst hlength hin
  rw [exec_requestInstr, present_eq_operation a n hst hlength hin]

end Sys2Proof.SequencerStatements
end

section
/-! The words of a call and the operation they stand for: what each part of the decoder answers, and to which words
(30_encoding R71, R72, R79 to R81). -/

namespace Sys2Proof

/-! A single operand in its container (R76, R79) -/

/-- A container holds an operand exactly when it is the operand with zeros above. -/
theorem operand_ok_iff {n : Nat} (hn : n ≤ 16) {w : Word} {x : BitVec n} : operand n w = .ok x ↔ w = x.setWidth 16 := by
  constructor
  · intro h
    obtain ⟨hlt, rfl⟩ := operand_ok h
    apply BitVec.eq_of_toNat_eq
    rw [BitVec.toNat_setWidth_of_le hn, BitVec.toNat_setWidth, Nat.mod_eq_of_lt hlt]
  · rintro rfl
    have hlt : (x.setWidth 16).toNat < 2 ^ n := by
      rw [BitVec.toNat_setWidth_of_le hn]
      exact x.isLt
    rw [operand, if_pos hlt, BitVec.setWidth_setWidth_of_le _ hn, BitVec.setWidth_eq]

theorem operandBool_ok_iff {w : Word} {b : Bool} : operandBool w = .ok b ↔ w = boolWord b := by
  constructor
  · intro h
    obtain ⟨x, hx, rfl⟩ := operand_map_ok h
    obtain rfl := (operand_ok_iff (by decide)).mp hx
    revert x
    decide
  · rintro rfl
    cases b <;> rfl

/-! The decoders of calls -/

theorem decodePair_of_ok {α : Type} (mk : Word → α → Instr) {second : Word → Except Reject α} (w : Word) {v : Word} {x : α}
    (h : second v = .ok x) : decodePair mk second [w, v] = .ok (mk w x) := by
  simp only [decodePair, h, Except.map]

theorem operand_map_setWidth {n : Nat} (hn : n ≤ 16) (mk : BitVec n → Instr) (x : BitVec n) :
    (operand n (x.setWidth 16)).map mk = .ok (mk x) := by
  rw [(operand_ok_iff hn).mpr rfl]
  rfl

theorem decodeFixed_ok_iff {value w : Word} {i j : Instr} : decodeFixed value i w = .ok j ↔ w = value ∧ i = j := by
  unfold decodeFixed
  split <;> simp [*]

/-- An operand that fits `CH_IN_W` bits is one its port carries. -/
theorem exists_signedOp {a : Int} (h : fitsSigned a = true) : ∃ x : SignedOp, x.toInt = a := by
  simp only [fitsSigned, decide_eq_true_eq] at h
  exact ⟨BitVec.ofInt 8 a, BitVec.toInt_ofInt_eq_self (by decide) (by omega) (by omega)⟩

/-- A count that fits `CNT_W` bits is one its port carries. -/
theorem exists_count {n : Nat} (h : fitsCount n = true) : ∃ x : Count, x.toNat = n := by
  simp only [fitsCount, decide_eq_true_eq] at h
  exact ⟨BitVec.ofNat 5 n, Nat.mod_eq_of_lt h⟩

/-! Request words (R80, R81) -/

/-- The request word with these bits in its fields. -/
def requestWord (c : BitVec 2) (a : SignedOp) (n : Count) : Word := c ++ 0#1 ++ n ++ a

theorem requestWord_opcode (c : BitVec 2) (a : SignedOp) (n : Count) : (requestWord c a n).extractLsb' 14 2 = c := by
  simp only [requestWord]
  rw [BitVec.extractLsb'_append_eq_of_le (by decide), BitVec.extractLsb'_append_eq_of_le (by decide),
    BitVec.extractLsb'_append_eq_left]

theorem requestWord_count (c : BitVec 2) (a : SignedOp) (n : Count) : (requestWord c a n).extractLsb' 8 5 = n := by
  simp only [requestWord]
  rw [BitVec.extractLsb'_append_eq_of_le (by decide), BitVec.extractLsb'_append_eq_right]

theorem requestWord_operand (c : BitVec 2) (a : SignedOp) (n : Count) : (requestWord c a n).extractLsb' 0 8 = a :=
  BitVec.extractLsb'_append_eq_right

theorem requestWord_reserved (c : BitVec 2) (a : SignedOp) (n : Count) : (requestWord c a n).getLsbD 13 = false := by
  simp only [requestWord, BitVec.getLsbD_append]
  rfl

/-- A request word with bit 13 clear is its three fields. -/
theorem requestWord_of_fields {q : Word} (h : q.getLsbD 13 = false) :
    requestWord (q.extractLsb' 14 2) (q.extractLsb' 0 8) (q.extractLsb' 8 5) = q := by
  have hbit : q.extractLsb' 13 1 = 0#1 := by
    apply BitVec.eq_of_getLsbD_eq
    intro i hi
    obtain rfl : i = 0 := by omega
    simpa using h
  rw [requestWord, ← hbit, BitVec.extractLsb'_append_extractLsb'_eq_extractLsb' (rfl : 14 = 13 + 1),
    BitVec.extractLsb'_append_extractLsb'_eq_extractLsb' (rfl : 13 = 8 + 5),
    BitVec.extractLsb'_append_extractLsb'_eq_extractLsb' (rfl : 8 = 0 + 8)]
  exact BitVec.extractLsb'_eq_self

@[simp] theorem ofCode_code (op : Op) : Op.ofCode op.code = op := by cases op <;> rfl

@[simp] theorem code_ofCode (c : BitVec 2) : (Op.ofCode c).code = c := by
  revert c
  decide

theorem encode_requestInstr (op : Op) (a : SignedOp) (n : Count) :
    encode (requestInstr op a n) = [requestWord op.code a n] := by
  cases op <;> simp [requestInstr, encode, encodeRequest, requestWord]

theorem decode_requestWord (c : BitVec 2) (a : SignedOp) (n : Count) :
    decode .request [requestWord c a n] = .ok (requestInstr (Op.ofCode c) a n) := by
  rw [Machine.decode_request_of_not_reserved (requestWord_reserved c a n), requestWord_opcode, requestWord_operand,
    requestWord_count]

/-- Operands that fit their ports are a request's operand bits. -/
theorem exists_operands {a : Int} {n : Nat} (h : (fitsSigned a && fitsCount n) = true) :
    ∃ (x : SignedOp) (y : Count), x.toInt = a ∧ y.toNat = n := by
  obtain ⟨ha, hn⟩ := Bool.and_eq_true_iff.mp h
  obtain ⟨x, hx⟩ := exists_signedOp ha
  obtain ⟨y, hy⟩ := exists_count hn
  exact ⟨x, y, hx, hy⟩

/-- Every request that fits its port is an opcode with operand bits. -/
theorem exists_requestInstr {i : Instr} (hport : i.port = .request) (hfits : i.wellFormed = true) :
    ∃ op a n, i = requestInstr op a n := by
  cases i
  case init => obtain ⟨x, y, rfl, rfl⟩ := exists_operands hfits; exact ⟨.init, x, y, rfl⟩
  case readChannel => obtain ⟨x, y, rfl, rfl⟩ := exists_operands hfits; exact ⟨.readChannel, x, y, rfl⟩
  case readRange => obtain ⟨x, y, rfl, rfl⟩ := exists_operands hfits; exact ⟨.readRange, x, y, rfl⟩
  case readAll => obtain ⟨x, y, rfl, rfl⟩ := exists_operands hfits; exact ⟨.readAll, x, y, rfl⟩
  all_goals cases hport

/-- The words of a request decode to it. -/
theorem decode_encode_requestInstr (op : Op) (a : SignedOp) (n : Count) :
    decode .request (encode (requestInstr op a n)) = .ok (requestInstr op a n) := by
  rw [encode_requestInstr, decode_requestWord, ofCode_code]

/-- A request word that decodes is the word of the request. -/
theorem encode_of_decodeRequest {q : Word} {i : Instr} (h : decodeRequest q = .ok i) : encode i = [q] := by
  cases hbit : q.getLsbD 13 with
  | true => simp [decodeRequest, hbit] at h
  | false =>
    simp only [decodeRequest, hbit, Bool.false_eq_true, if_false, Except.ok.injEq] at h
    rw [← h, encode_requestInstr, code_ofCode, requestWord_of_fields hbit]

/-! A request's fields as numbers -/

theorem toNat_extractLsb'_eq (lo len : Nat) (q : Word) : (q.extractLsb' lo len).toNat = q.toNat / 2 ^ lo % 2 ^ len := by
  rw [BitVec.extractLsb'_toNat, Nat.shiftRight_eq_div_pow]

theorem requestInstr_ofCode (c : BitVec 2) (a : SignedOp) (n : Count) : requestInstr (Op.ofCode c) a n =
    if c.toNat = 0 then .init a.toInt n.toNat
    else if c.toNat = 1 then .readChannel a.toInt n.toNat
    else if c.toNat = 2 then .readRange a.toInt n.toNat
    else .readAll n.toNat a.toInt := by
  have hcode : ∀ c : BitVec 2, c = 0 ∨ c = 1 ∨ c = 2 ∨ c = 3 := by decide
  rcases hcode c with rfl | rfl | rfl | rfl <;> rfl

/-- The operand of a request word: its low byte less 256 if its sign bit 7 is set (R77). -/
theorem toInt_requestOperand (q : Word) :
    (q.extractLsb' 0 8).toInt = ((q.toNat % 256 : Nat) - 256 * (q.toNat / 128 % 2 : Nat) : Int) := by
  rw [BitVec.toInt_eq_toNat_cond, toNat_extractLsb'_eq]
  split <;> omega

end Sys2Proof
end

section
/-! BUILD's row word (30_encoding R71, 40_codec R101). -/

namespace Sys2Proof.Machine

theorem toNat_buildRow (scan : BitVec 4) (reset pm : BitVec 2) (chid swc cfg : Bool) :
    (BitVec.ofBool cfg ++ scan ++ 0#4 ++ reset ++ pm ++ BitVec.ofBool chid ++ BitVec.ofBool swc ++ 0#1).toNat =
      (cfg.toNat <<< 15) ||| (scan.toNat <<< 11) ||| (reset.toNat <<< 5) ||| (pm.toNat <<< 3) ||| (chid.toNat <<< 2) |||
        (swc.toNat <<< 1) := by
  simp only [BitVec.toNat_append, BitVec.toNat_ofBool, BitVec.toNat_ofNat, Nat.shiftLeft_or_distrib, ← Nat.shiftLeft_add]
  simp

/-- The row of the table and BUILD's shifts and ORs are one word. -/
theorem encode_build (scan : BitVec 4) (reset pm : BitVec 2) (chid swc cfg : Bool) :
    encode (.build scan reset pm chid swc cfg) = [buildWord scan reset pm chid swc cfg] := by
  rw [encode, List.singleton_inj, buildWord_eq_ofNat, ← toNat_buildRow, BitVec.ofNat_toNat]
  exact (BitVec.setWidth_eq _).symm

theorem readField_and (f : Field) (w w' : Word) : readField f (w &&& w') = readField f w &&& readField f w' := by
  simp [readField, BitVec.extractLsb'_and]

/-- A field of one bit is that bit. -/
theorem readField_bit (lo : Nat) (w : Word) : readField ⟨lo, 1⟩ w = BitVec.ofBool (w.getLsbD lo) := by
  apply BitVec.eq_of_getLsbD_eq
  intro i hi
  obtain rfl : i = 0 := Nat.lt_one_iff.mp hi
  rw [getLsbD_readField Nat.one_pos]
  simp

/-- The fixed bits of BUILD's row are CHANNEL and bit 0. -/
theorem buildRow_fixedBits_iff (w : Word) :
    w &&& 0x0781 = 0 ↔ readField fChannel w = 0#fChannel.width ∧ w.getLsbD 0 = false := by
  constructor
  · intro h
    constructor
    · calc readField fChannel w
          _ = readField fChannel w &&& readField fChannel 0x0781 := (BitVec.and_allOnes (x := readField fChannel w)).symm
          _ = readField fChannel (w &&& 0x0781) := (readField_and ..).symm
          _ = 0#fChannel.width := by rw [h]; rfl
    · simpa using congrArg (·.getLsbD 0) h
  · rintro ⟨hchannel, hzero⟩
    have hother : ∀ f ∈ commandFields, f ≠ fChannel → readField f 0x0781 = 0#f.width := by decide
    apply eq_of_readField_eq
    · intro f hf
      have hnone : readField f 0 = 0#f.width := by simp [readField]
      rw [readField_and, hnone]
      by_cases hf' : f = fChannel
      · rw [hf', hchannel, BitVec.zero_and]
      · rw [hother f hf hf', BitVec.and_zero]
    · rw [BitVec.getLsbD_and, hzero, Bool.false_and]
      rfl

theorem decodeBuild_of_fixedBits {w : Word} (hchannel : readField fChannel w = 0#fChannel.width)
    (hzero : w.getLsbD 0 = false) : decodeBuild w =
      .ok (.build (readField fScanMode w) (readField fReset w) (readField fPowerMode w) (w.getLsbD 2) (w.getLsbD 1)
        (w.getLsbD 15)) :=
  if_pos ((buildRow_fixedBits_iff w).mpr ⟨hchannel, hzero⟩)

theorem getLsbD_of_readField {lo : Nat} {w : Word} {b : Bool} (h : readField ⟨lo, 1⟩ w = BitVec.ofBool b) :
    w.getLsbD lo = b := by
  have hbits : BitVec.ofBool (w.getLsbD lo) = BitVec.ofBool b := (readField_bit lo w).symm.trans h
  exact BitVec.ofBool_eq_iff_eq.mp hbits

theorem decodeBuild_buildWord (scan : BitVec 4) (reset pm : BitVec 2) (chid swc cfg : Bool) :
    decodeBuild (buildWord scan reset pm chid swc cfg) = .ok (.build scan reset pm chid swc cfg) := by
  obtain ⟨hscan, hreset, hpm, hchid, hswc, hcfg, hchannel⟩ :=
    readField_packFields scan reset pm (BitVec.ofBool chid) (BitVec.ofBool swc) (BitVec.ofBool cfg)
  rw [buildWord_eq_packFields, decodeBuild_of_fixedBits hchannel (packFields_bit_zero ..), hscan, hreset, hpm,
    getLsbD_of_readField hchid, getLsbD_of_readField hswc, getLsbD_of_readField hcfg]

/-- A word with CHANNEL and bit 0 clear is its other six fields. -/
theorem packFields_of_fixedBits {w : Word} (hchannel : readField fChannel w = 0#fChannel.width) (hzero : w.getLsbD 0 = false) :
    packFields (readField fScanMode w) (readField fReset w) (readField fPowerMode w) (readField fChannelIdEnable w)
      (readField fSoftwareConvert w) (readField fConfig w) = w := by
  apply eq_of_readField_eq
  · simp only [List.forall_mem_cons, readField_packFields, hchannel, List.not_mem_nil, false_implies, implies_true, and_self]
  · rw [packFields_bit_zero, hzero]

theorem exists_buildWord {w : Word} (hchannel : readField fChannel w = 0#fChannel.width) (hzero : w.getLsbD 0 = false) :
    ∃ scan reset pm chid swc cfg, buildWord scan reset pm chid swc cfg = w := by
  have hchid : readField fChannelIdEnable w = BitVec.ofBool (w.getLsbD 2) := readField_bit 2 w
  have hswc : readField fSoftwareConvert w = BitVec.ofBool (w.getLsbD 1) := readField_bit 1 w
  have hcfg : readField fConfig w = BitVec.ofBool (w.getLsbD 15) := readField_bit 15 w
  have hpacked := packFields_of_fixedBits hchannel hzero
  rw [hchid, hswc, hcfg] at hpacked
  exact ⟨_, _, _, _, _, _, hpacked⟩

/-- A word that decodes as BUILD is the word BUILD makes of its operands. -/
theorem encode_of_decodeBuild {w : Word} {i : Instr} (h : decodeBuild w = .ok i) : encode i = [w] := by
  by_cases hfixed : w &&& 0x0781 = 0
  · obtain ⟨hchannel, hzero⟩ := (buildRow_fixedBits_iff w).mp hfixed
    obtain ⟨scan, reset, pm, chid, swc, cfg, rfl⟩ := exists_buildWord hchannel hzero
    rw [decodeBuild_buildWord] at h
    obtain rfl := Except.ok.inj h
    exact encode_build ..
  · rw [decodeBuild, if_neg hfixed] at h
    cases h

end Sys2Proof.Machine
end

section
/-! The statements about the encoding. -/

namespace Sys2Proof.EncodingStatements
open Sys2Proof Sys2Proof.Machine

/-- Settles O1: a request by its three fields, BUILD by its six, any other call by each operand in its container. -/
theorem decodeReadsEncodedCalls : Obligations.DecodeReadsEncodedCalls := by
  intro i hi
  by_cases hport : i.port = .request
  · obtain ⟨op, a, n, rfl⟩ := exists_requestInstr hport hi
    rw [hport]
    exact decode_encode_requestInstr op a n
  cases i
  case init | readChannel | readRange | readAll => exact absurd rfl hport
  case build => rw [encode_build]; exact decodeBuild_buildWord ..
  case withChannel w ch =>
    obtain ⟨x, rfl⟩ := exists_signedOp hi
    rw [encode, BitVec.ofInt_toInt]
    exact decodePair_of_ok (fun w (ch : SignedOp) => .withChannel w ch.toInt) w ((operand_ok_iff (by decide)).mpr rfl)
  case setConfig w v | setChannelIdEnable w v | setSoftwareConvert w v =>
    exact decodePair_of_ok _ w (operandBool_ok_iff.mpr rfl)
  case setScanMode w v => exact decodePair_of_ok _ w ((operand_ok_iff (by decide)).mpr rfl)
  case setReset w v | setPowerMode w v => exact decodePair_of_ok _ w ((operand_ok_iff (n := 2) (by decide)).mpr rfl)
  case buildResponse ch p =>
    change Except.ok _ = Except.ok _
    rw [BitVec.extractLsb'_append_eq_left, BitVec.extractLsb'_append_eq_right]
  case respondingChannel | payload | toRaw | fromRaw | resetWord | defaultWord => rfl
  case manualCmd c =>
    obtain ⟨x, rfl⟩ := exists_signedOp hi
    rw [encode, BitVec.ofInt_toInt]
    exact operand_map_setWidth (by decide) _ x
  case sweepCmd n =>
    obtain ⟨x, rfl⟩ := exists_count hi
    rw [encode, BitVec.ofNat_toNat]
    exact operand_map_setWidth (by decide) _ x

/-- Settles O2: port by port, what the decoder read is every bit of the words. -/
theorem encodeWritesDecodedCalls : Obligations.EncodeWritesDecodedCalls := by
  intro p ws i h
  cases p <;> simp only [decode] at h
  case request =>
    obtain ⟨w, rfl, hw⟩ := decodeOne_ok h
    exact encode_of_decodeRequest hw
  case build =>
    obtain ⟨w, rfl, hw⟩ := decodeOne_ok h
    exact encode_of_decodeBuild hw
  case withChannel =>
    obtain ⟨w, v, x, rfl, hv, rfl⟩ := decodePair_ok h
    rw [encode, BitVec.ofInt_toInt, (operand_ok_iff (by decide)).mp hv]
  case setConfig | setChannelIdEnable | setSoftwareConvert =>
    obtain ⟨w, v, x, rfl, hv, rfl⟩ := decodePair_ok h
    rw [encode, operandBool_ok_iff.mp hv]
  case setScanMode | setReset | setPowerMode =>
    obtain ⟨w, v, x, rfl, hv, rfl⟩ := decodePair_ok h
    rw [encode, (operand_ok_iff (by decide)).mp hv]
  case buildResponse =>
    obtain ⟨w, rfl, hw⟩ := decodeOne_ok h
    obtain rfl := Except.ok.inj hw
    rw [encode, BitVec.extractLsb'_append_extractLsb'_eq_extractLsb' (rfl : 12 = 0 + 12)]
    exact congrArg (fun v => [v]) BitVec.extractLsb'_eq_self
  case respondingChannel | payload | toRaw | fromRaw =>
    obtain ⟨w, rfl, hw⟩ := decodeOne_ok h
    obtain rfl := Except.ok.inj hw
    rfl
  case resetWord | defaultWord =>
    obtain ⟨w, rfl, hw⟩ := decodeOne_ok h
    obtain ⟨rfl, rfl⟩ := decodeFixed_ok_iff.mp hw
    rfl
  case manualCmd =>
    obtain ⟨w, rfl, hw⟩ := decodeOne_ok h
    obtain ⟨x, hx, rfl⟩ := operand_map_ok hw
    rw [encode, BitVec.ofInt_toInt, (operand_ok_iff (by decide)).mp hx]
  case sweepCmd =>
    obtain ⟨w, rfl, hw⟩ := decodeOne_ok h
    obtain ⟨x, hx, rfl⟩ := operand_map_ok hw
    rw [encode, BitVec.ofNat_toNat, (operand_ok_iff (by decide)).mp hx]

/-- Settles O3: the reserved bit and the three fields of the word, read as numbers. -/
theorem requestWordsAreCutByPosition : Obligations.RequestWordsAreCutByPosition := by
  intro q
  refine ⟨fun hreserved => decode_request_reserved ?set, fun hclear => ?cut⟩
  case set =>
    refine Bool.eq_true_of_not_eq_false fun hbit => ?_
    rw [reservedBit_eq_false_iff, hreserved] at hbit
    cases hbit
  case cut =>
    have hcode : q.toNat / 2 ^ 14 % 2 ^ 2 = q.toNat / 16384 := by omega
    have hcount : q.toNat / 2 ^ 8 % 2 ^ 5 = q.toNat / 256 % 32 := rfl
    rw [decode_request_of_not_reserved ((reservedBit_eq_false_iff q).mpr hclear), requestInstr_ofCode, toInt_requestOperand,
      toNat_extractLsb'_eq, toNat_extractLsb'_eq, hcode, hcount]

/-- Settles O4: each word evaluated by the decoder. -/
theorem sampleWordsDecode : Obligations.SampleWordsDecode := ⟨rfl, rfl, rfl, rfl, rfl, rfl, rfl, rfl⟩

end Sys2Proof.EncodingStatements
end

section
/-! What a call does, for every operation at once: a request is presented, and a codec function answers (41_engine, 40_codec
R100). -/

namespace Sys2Proof.Machine

/-- A call at the request port presents a request, of INIT only if it is INIT. -/
theorem exec_of_request {i : Instr} (h : i.port = .request) :
    ∃ op a n, (op = .init → ∃ a n, i = .init a n) ∧ ∀ s, exec i s = .next (present op a n s) := by
  cases i
  case init a n => exact ⟨.init, BitVec.ofInt 8 a, BitVec.ofNat 5 n, fun _ => ⟨a, n, rfl⟩, fun _ => rfl⟩
  case readChannel ch n => exact ⟨.readChannel, BitVec.ofInt 8 ch, BitVec.ofNat 5 n, nofun, fun _ => rfl⟩
  case readRange start count => exact ⟨.readRange, BitVec.ofInt 8 start, BitVec.ofNat 5 count, nofun, fun _ => rfl⟩
  case readAll size a => exact ⟨.readAll, BitVec.ofInt 8 a, BitVec.ofNat 5 size, nofun, fun _ => rfl⟩
  all_goals cases h

/-- Any other call answers what depends on its operands and the scan mode only. -/
theorem exec_of_codec {i : Instr} (h : i.port ≠ .request) :
    ∃ r : BitVec 4 → CodecResult, ∀ s, exec i s = .next (s.codecAnswer (r s.readAllScanMode)) := by
  cases i
  case init | readChannel | readRange | readAll => exact absurd rfl h
  case sweepCmd n => exact ⟨fun mode => .value ⟨.command, sweepCmd mode n⟩, fun _ => rfl⟩
  all_goals exact ⟨fun _ => _, fun _ => rfl⟩

theorem exec_next (i : Instr) (s : State) : ∃ t, exec i s = .next t := by
  by_cases h : i.port = .request
  · obtain ⟨op, a, n, -, hexec⟩ := exec_of_request h
    exact ⟨_, hexec s⟩
  · obtain ⟨r, hexec⟩ := exec_of_codec h
    exact ⟨_, hexec s⟩

theorem step_next (s : State) : ∃ t, step s = .next t := by
  match hin : s.inputs with
  | [] => exact ⟨_, step_of_nothing hin⟩
  | .call p ws :: rest =>
    match hd : decode p ws with
    | .ok i => rw [step_of_call hin hd]; exact exec_next i _
    | .error r => exact ⟨_, step_of_rejected hin hd⟩
  | .answer rx :: rest => exact ⟨_, step_of_answer hin⟩
  | .answerBytes hi lo :: rest => exact ⟨_, step_of_answerBytes hin⟩
  | .stall :: rest => exact ⟨_, step_of_stall hin⟩
  | .hwReset :: rest => exact ⟨_, step_of_hwReset hin⟩

/-! What every act of the block keeps, every step keeps -/

/-- The property is kept by each act a step is made of: the script and the counter moving on, a codec answer, the two accept
steps where they are taken, a transfer step, the beginning of an exchange, hardware reset. -/
structure Kept (P : State → Prop) : Prop where
  script : ∀ s ins k, P s → P { s with inputs := ins, free := k }
  codec : ∀ s r, P s → P (s.codecAnswer r)
  acceptInit : ∀ s a n, s.st = .uninit ∨ s.st = .idle → P s → P (acceptInit a n s)
  acceptRead : ∀ s op a n, op ≠ .init → s.st = .idle → P s → P (acceptRead op a n s)
  transfer : ∀ s rx, P s → P (transfer rx s)
  stall : ∀ s, P s → P (stall s)
  reset : ∀ s, P s → P (hardwareReset s)

/-- What the script's moving on and each transfer keep, the run on the answers at hand keeps. -/
theorem runOnAnswers_keeps {P : State → Prop} (hscript : ∀ s ins, P s → P { s with inputs := ins })
    (htransfer : ∀ s rx, P s → P (transfer rx s)) (ins : List Input) {s : State} (h : P s) : P (runOnAnswers ins s) := by
  induction ins generalizing s with
  | nil => exact h
  | cons i rest ih =>
    match hi : i.word? with
    | none => rwa [runOnAnswers_of_noAnswer (by simpa [noAnswerAtHand] using hi)]
    | some rx =>
      cases hbusy : s.busy with
      | false => rwa [runOnAnswers_of_not_busy _ hbusy]
      | true =>
        rw [runOnAnswers_busy hi rest hbusy]
        exact ih (htransfer _ rx (hscript s rest h))

section
variable {P : State → Prop} (kept : Kept P)
include kept

theorem Kept.present (op : Op) (a : SignedOp) (n : Count) {s : State} (h : P s) :
    P (Machine.present op a n s) := by
  have hrun {t : State} (ht : P t) : P (runOnAnswers s.inputs t) :=
    runOnAnswers_keeps (fun u ins => kept.script u ins u.free) kept.transfer s.inputs ht
  cases hacc : accepts s.st op with
  | false => rwa [present_refused hacc]
  | true =>
    rw [present_accepted hacc]
    have hst := (accepts_iff s.st op).mp hacc
    by_cases hop : op = .init
    · subst hop
      exact hrun (kept.acceptInit s a n (hst.symm.imp_left And.left) h)
    · rw [accept_read hop]
      exact hrun (kept.acceptRead s op a n hop (hst.resolve_right fun hinit => hop hinit.2) h)

theorem Kept.exec (i : Instr) {s t : State} (h : P s) (hexec : Machine.exec i s = .next t) : P t := by
  by_cases hport : i.port = .request
  · obtain ⟨op, a, n, -, hpresent⟩ := exec_of_request hport
    obtain rfl : Machine.present op a n s = t := by simpa [hpresent] using hexec
    exact kept.present op a n h
  · obtain ⟨r, hanswer⟩ := exec_of_codec hport
    obtain rfl : s.codecAnswer (r s.readAllScanMode) = t := by simpa [hanswer] using hexec
    exact kept.codec s _ h

theorem Kept.step {s t : State} (h : P s) (hstep : Machine.step s = .next t) : P t := by
  have hconsume (rest : List Input) : P (s.consume rest) := kept.script s rest (s.free + 1) h
  have hnext {u : State} (hu : Machine.step s = .next u) (hP : P u) : P t := by
    obtain rfl : u = t := by simpa [hu] using hstep
    exact hP
  match hin : s.inputs with
  | [] => exact hnext (step_of_nothing hin) (kept.stall s h)
  | .call p ws :: rest =>
    match hd : decode p ws with
    | .ok i => exact kept.exec i (hconsume rest) (step_of_call hin hd ▸ hstep)
    | .error r => exact hnext (step_of_rejected hin hd) (hconsume rest)
  | .answer rx :: rest => exact hnext (step_of_answer hin) (kept.transfer _ rx (hconsume rest))
  | .answerBytes hi lo :: rest => exact hnext (step_of_answerBytes hin) (kept.transfer _ _ (hconsume rest))
  | .stall :: rest => exact hnext (step_of_stall hin) (kept.stall _ (hconsume rest))
  | .hwReset :: rest => exact hnext (step_of_hwReset hin) (kept.reset _ (hconsume rest))

end

theorem Kept.and {P Q : State → Prop} (hP : Kept P) (hQ : Kept Q) : Kept fun s => P s ∧ Q s where
  script s ins k h := ⟨hP.script s ins k h.1, hQ.script s ins k h.2⟩
  codec s r h := ⟨hP.codec s r h.1, hQ.codec s r h.2⟩
  acceptInit s a n hst h := ⟨hP.acceptInit s a n hst h.1, hQ.acceptInit s a n hst h.2⟩
  acceptRead s op a n hop hst h := ⟨hP.acceptRead s op a n hop hst h.1, hQ.acceptRead s op a n hop hst h.2⟩
  transfer s rx h := ⟨hP.transfer s rx h.1, hQ.transfer s rx h.2⟩
  stall s h := ⟨hP.stall s h.1, hQ.stall s h.2⟩
  reset s h := ⟨hP.reset s h.1, hQ.reset s h.2⟩

end Sys2Proof.Machine
end

section
/-! What one transfer step does on the bus side, in every position (42_sequencer R164 to R166). -/

namespace Sys2Proof.Machine

/-- The word of the transfer that the position calls for (R164 to R167); UNINIT and IDLE call for none, and INIT's word stands
there. -/
def transferWord (s : State) : Word :=
  match s.st with
  | .uninit | .idle | .init => resetWord
  | .priming => primeCmd s.readAllScanMode s.op s.a s.n
  | .steady => steadyCmd s.readAllScanMode s.op s.a s.n s.idx

theorem busy_iff (s : State) : s.busy = true ↔ s.st = .init ∨ s.st = .priming ∨ s.st = .steady := by
  rw [busy_eq]
  cases s.st <;> simp [SeqState.busy]

theorem not_busy_iff (s : State) : s.busy = false ↔ s.st = .uninit ∨ s.st = .idle := by
  rw [busy_eq]
  cases s.st <;> simp [SeqState.busy]

theorem transfer_of_not_busy (rx : Word) {s : State} (h : s.busy = false) : transfer rx s = s := by
  rcases (not_busy_iff s).mp h with hst | hst
  · exact transfer_of_uninit rx hst
  · exact transfer_of_idle rx hst

/-- While BUSY one answer closes the exchange with the position's word sent; then the operation ends, or a read goes on to its
next harvest. -/
theorem transfer_of_busy (rx : Word) {s : State} (h : s.busy = true) :
    (transfer rx s).inXfer = false ∧ (transfer rx s).lastCmd = transferWord s ∧
      ((transfer rx s).st = .idle ∧
          (transfer rx s).trace = s.trace ++ (frameEvents s.inXfer (transferWord s) rx ++ [.txnEnd]) ∨
        s.st ≠ .init ∧ (transfer rx s).st = .steady ∧
          (transfer rx s).trace = s.trace ++ frameEvents s.inXfer (transferWord s) rx) := by
  rcases (busy_iff s).mp h with hst | hst | hst
  · simp [transfer_of_init rx hst, transferWord, hst]
  · by_cases ht : total s.op s.n = 0
    · simp [transfer_of_priming_empty rx hst ht, transferWord, hst]
    · simp [transfer_of_priming_more rx hst ht, transferWord, hst]
  · by_cases ht : s.idx.toNat + 1 = total s.op s.n
    · simp [transfer_of_steady_last rx hst ht, transferWord, hst]
    · simp [transfer_of_steady_more rx hst ht, transferWord, hst]

theorem transfer_trace_prefix (rx : Word) (s : State) : s.trace <+: (transfer rx s).trace := by
  cases hbusy : s.busy with
  | false => rw [transfer_of_not_busy rx hbusy]
  | true =>
    obtain ⟨-, -, ⟨-, htrace⟩ | ⟨-, -, htrace⟩⟩ := transfer_of_busy rx hbusy
    · exact ⟨_, htrace.symm⟩
    · exact ⟨_, htrace.symm⟩

theorem stall_trace_prefix (s : State) : s.trace <+: (stall s).trace := by
  obtain ⟨-, -, h⟩ | h := stall_cases s
  · rw [h]; exact ⟨[.csAssert], rfl⟩
  · rw [h]

/-- A trace that begins with `es` goes on beginning with it. -/
theorem kept_trace_prefix (es : List Event) : Kept fun t => es <+: t.trace where
  script _ _ _ h := h
  codec _ _ h := h
  acceptInit _ _ _ _ h := h.trans (List.prefix_append _ _)
  acceptRead _ _ _ _ _ _ h := h.trans (List.prefix_append _ _)
  transfer s rx h := h.trans (transfer_trace_prefix rx s)
  stall s h := h.trans (stall_trace_prefix s)
  reset _ h := h

theorem kept_cfg (cfg : Cfg) : Kept fun t => t.cfg = cfg where
  script _ _ _ h := h
  codec _ _ h := h
  acceptInit _ _ _ _ h := h
  acceptRead _ _ _ _ _ _ h := h
  transfer s rx h := by
    obtain ⟨-, -, -, hcfg, -⟩ := transfer_frame rx s
    exact hcfg.trans h
  stall s h := by obtain ⟨-, -, h'⟩ | h' := stall_cases s <;> rw [h'] <;> exact h
  reset _ h := h

theorem kept_readAllScanMode (mode : BitVec 4) : Kept fun t => t.readAllScanMode = mode where
  script _ _ _ h := h
  codec _ _ h := h
  acceptInit _ _ _ _ h := h
  acceptRead _ _ _ _ _ _ h := h
  transfer s rx h := by
    obtain ⟨-, -, -, -, hmode, -⟩ := transfer_frame rx s
    exact hmode.trans h
  stall s h := by obtain ⟨-, -, h'⟩ | h' := stall_cases s <;> rw [h'] <;> exact h
  reset _ h := h

end Sys2Proof.Machine
end

section
/-! The statements about every step. -/

namespace Sys2Proof.StepStatements
open Sys2Proof Sys2Proof.Machine

/-- Settles O5: the step's own reading of a call. -/
theorem stepRunsDecodedCall : Obligations.StepRunsDecodedCall := fun _ _ _ _ _ hin hd => step_of_call hin hd

/-- Settles O6: every kind of input is answered, and every operation has a meaning. -/
theorem stepNeverStops : Obligations.StepNeverStops := step_next

/-- Settles O28: no act of a step writes a parameter. -/
theorem parametersAreNeverWritten : Obligations.ParametersAreNeverWritten := fun _ _ hstep =>
  ((kept_cfg _).and (kept_readAllScanMode _)).step ⟨rfl, rfl⟩ hstep

/-- Settles O29: every act of a step appends to the trace or leaves it. -/
theorem traceOnlyGrows : Obligations.TraceOnlyGrows := by
  intro s t hstep
  obtain ⟨es, hes⟩ := (kept_trace_prefix s.trace).step List.prefix_rfl hstep
  exact ⟨es, hes.symm⟩

/-- Settles O49: the answer is a function of the operands and the scan mode, which both states share. -/
theorem codecReadsAndWritesNoRegister : Obligations.CodecReadsAndWritesNoRegister := by
  intro i hport s s' hmode
  obtain ⟨r, hexec⟩ := exec_of_codec hport
  refine ⟨r s.readAllScanMode, hexec s, ?_⟩
  rw [hmode]
  exact hexec s'

end Sys2Proof.StepStatements
end

section
/-! The engine's words as numbers and by their bits (30_encoding R82, 41_engine R131, R135). -/

namespace Sys2Proof.Machine

theorem toNat_clamp15_lt (c : Int) : (clamp15 c).toNat < 16 := by
  obtain ⟨h0, h15⟩ := clamp15_bounds c
  omega

/-- A clamped channel at bits 10:7 fits the word. -/
theorem clamp15_shiftLeft_lt (c : Int) : (clamp15 c).toNat <<< 7 < 2 ^ 16 := by
  have h := toNat_clamp15_lt c
  rw [Nat.shiftLeft_eq]
  omega

theorem toNat_manualCmd (c : Int) : (manualCmd c).toNat = manualValue c := by
  rw [manualCmd_eq_ofNat]
  exact Nat.mod_eq_of_lt (Nat.or_lt_two_pow (by decide) (clamp15_shiftLeft_lt c))

theorem toNat_sweepCmd (mode : BitVec 4) (n : Nat) : (sweepCmd mode n).toNat = sweepValue mode n := by
  have hmode : mode.toNat <<< 11 < 2 ^ 16 := by
    have h := mode.isLt
    rw [Nat.shiftLeft_eq]
    omega
  rw [sweepCmd_eq_ofNat]
  exact Nat.mod_eq_of_lt (Nat.or_lt_two_pow (Nat.or_lt_two_pow hmode (clamp15_shiftLeft_lt _)) (by decide))

theorem engineWord_resetWord (mode : BitVec 4) : engineWord mode resetWord := .inl resetWord_eq

theorem engineWord_manualCmd (mode : BitVec 4) (c : Int) : engineWord mode (manualCmd c) :=
  .inr (.inl ⟨(clamp15 c).toNat, Nat.le_of_lt_succ (toNat_clamp15_lt c), toNat_manualCmd c⟩)

theorem engineWord_sweepCmd (mode : BitVec 4) (n : Nat) : engineWord mode (sweepCmd mode n) :=
  .inr (.inr ⟨(clamp15 ((n : Int) - 1)).toNat, Nat.le_of_lt_succ (toNat_clamp15_lt _), toNat_sweepCmd mode n⟩)

/-- What a read operation may send: CONFIG 0 and CHANNEL_ID_ENABLE 1 (R135). -/
abbrev ReadWord (w : Word) : Prop := w.getLsbD 15 = false ∧ w.getLsbD 2 = true

theorem readWord_withChannel {w : Word} (h : ReadWord w) (ch : Int) : ReadWord (withChannel w ch) := by
  obtain ⟨h15, h2⟩ := h
  have hout15 : ¬ fChannel.Covers 15 := by decide
  have hout2 : ¬ fChannel.Covers 2 := by decide
  exact ⟨(getLsbD_setField_outside (by decide) w _ hout15).trans h15,
    (getLsbD_setField_outside (by decide) w _ hout2).trans h2⟩

theorem readWord_manualCmd (c : Int) : ReadWord (manualCmd c) := readWord_withChannel (by decide) c

theorem readWord_sweepCmd (mode : BitVec 4) (n : Nat) : ReadWord (sweepCmd mode n) := by
  have hbase : ∀ m : BitVec 4,
      ReadWord (buildWord m ResetScope.none.code PowerMode.normal.code true true false) := by decide
  exact readWord_withChannel (hbase mode) _

/-- Every position's word is the Reset command word, a manual request or a sweep request; a read operation's is no Reset
command word. -/
theorem transferWord_cases (s : State) :
    ((s.op ≠ .init → s.st = .init ∨ s.busy = false) ∧ transferWord s = resetWord) ∨ (∃ c, transferWord s = manualCmd c) ∨
      transferWord s = sweepCmd s.readAllScanMode s.n.toNat := by
  unfold transferWord
  match hst : s.st with
  | .uninit | .idle | .init => simp [not_busy_iff, hst]
  | .priming => cases hop : s.op <;> simp [primeCmd]
  | .steady => cases hop : s.op <;> simp [steadyCmd]

theorem engineWord_transferWord (s : State) : engineWord s.readAllScanMode (transferWord s) := by
  obtain ⟨-, h⟩ | ⟨c, h⟩ | h := transferWord_cases s
  · rw [h]; exact engineWord_resetWord _
  · rw [h]; exact engineWord_manualCmd _ c
  · rw [h]; exact engineWord_sweepCmd _ _

theorem readWord_transferWord {s : State} (hbusy : s.busy = true) (hop : s.op ≠ .init) (hst : s.st ≠ .init) :
    ReadWord (transferWord s) := by
  obtain ⟨hreset, -⟩ | ⟨c, h⟩ | h := transferWord_cases s
  · exact absurd (hreset hop) (by simp [hst, hbusy])
  · rw [h]; exact readWord_manualCmd c
  · rw [h]; exact readWord_sweepCmd _ _

end Sys2Proof.Machine
end

section
/-! The sequencer's part of the invariant (42_sequencer R162 to R167). -/

namespace Sys2Proof.Machine

theorem seqInv_of_priming {s : State} (h : s.st = .priming) : seqInv s ↔ s.op ≠ .init ∧ s.idx = 0 := by
  simp only [seqInv, h]

theorem seqInv_of_steady {s : State} (h : s.st = .steady) : seqInv s ↔ s.op ≠ .init ∧ s.idx.toNat < total s.op s.n := by
  simp only [seqInv, h]

/-- IDX moves on by one as long as a harvest is left. -/
theorem toNat_idx_succ {s : State} (h : s.idx.toNat < total s.op s.n) : (s.idx + 1).toNat = s.idx.toNat + 1 := by
  have htotal := total_lt s.op s.n
  rw [BitVec.toNat_add]
  exact Nat.mod_eq_of_lt (by simp; omega)

theorem seqInv_transfer (rx : Word) {s : State} (h : seqInv s) : seqInv (transfer rx s) := by
  match hst : s.st with
  | .uninit => rwa [transfer_of_uninit rx hst]
  | .idle => rwa [transfer_of_idle rx hst]
  | .init => rw [transfer_of_init rx hst]; trivial
  | .priming =>
    obtain ⟨hop, hidx⟩ := (seqInv_of_priming hst).mp h
    by_cases ht : total s.op s.n = 0
    · rw [transfer_of_priming_empty rx hst ht]; trivial
    · rw [transfer_of_priming_more rx hst ht]
      refine (seqInv_of_steady rfl).mpr ⟨hop, ?_⟩
      change s.idx.toNat < total s.op s.n
      rw [hidx]
      exact Nat.pos_of_ne_zero ht
  | .steady =>
    obtain ⟨hop, hidx⟩ := (seqInv_of_steady hst).mp h
    by_cases ht : s.idx.toNat + 1 = total s.op s.n
    · rw [transfer_of_steady_last rx hst ht]; trivial
    · rw [transfer_of_steady_more rx hst ht]
      refine (seqInv_of_steady (by simp [hst])).mpr ⟨hop, ?_⟩
      change (s.idx + 1).toNat < total s.op s.n
      rw [toNat_idx_succ hidx]
      omega

theorem kept_seqInv : Kept seqInv where
  script _ _ _ h := h
  codec _ _ h := h
  acceptInit _ _ _ _ _ := rfl
  acceptRead _ _ _ _ hop _ _ := ⟨hop, rfl⟩
  transfer _ rx h := seqInv_transfer rx h
  stall s h := by obtain ⟨-, -, h'⟩ | h' := stall_cases s <;> rw [h'] <;> exact h
  reset _ _ := trivial

end Sys2Proof.Machine
end

section
/-! The bus side's part of the invariant: framing, bracket, configuration, words sent (20_memory R53, R54, R59, R65). -/

namespace Sys2Proof.Machine

/-! The lines in each position -/

theorem linesInv_of_uninit {s : State} (h : s.st = .uninit) :
    linesInv s ↔ s.inXfer = false ∧ frameOf s.trace ∈ [some .start, some .ready, some .asserted] := by
  simp only [linesInv, h]

theorem linesInv_of_idle {s : State} (h : s.st = .idle) :
    linesInv s ↔ s.inXfer = false ∧ frameOf s.trace = some .ready ∧ txnOpen s.trace = false := by
  simp only [linesInv, h]

theorem linesInv_of_busy {s : State} (h : s.busy = true) :
    linesInv s ↔ frameOf s.trace = some (if s.inXfer then .asserted else .ready) ∧ txnOpen s.trace = true := by
  rcases (busy_iff s).mp h with hst | hst | hst <;> simp only [linesInv, hst]

/-- In no position does the framing stand inside a release (70_reset R222). -/
theorem linesInv_frame {s : State} (h : linesInv s) : frameOf s.trace ∈ [some .start, some .ready, some .asserted] := by
  match hst : s.st with
  | .uninit => exact ((linesInv_of_uninit hst).mp h).2
  | .idle =>
    obtain ⟨-, hframe, -⟩ := (linesInv_of_idle hst).mp h
    simp [hframe]
  | .init | .priming | .steady =>
    obtain ⟨hframe, -⟩ := (linesInv_of_busy (by simp [busy_iff, hst])).mp h
    rw [hframe]
    cases s.inXfer <;> simp

/-- INIT's first events lead the framing to ready from wherever a position left it (R163, 70_reset R210). -/
theorem frameOf_append_accept {es : List Event} (h : frameOf es ∈ [some .start, some .ready, some .asserted]) (hz : Nat)
    (order : BitOrder) (mode : BusMode) :
    frameOf (es ++ [.csDeassert, .settle, .configure hz order mode, .txnBegin]) = some .ready := by
  rw [frameOf_append]
  simp only [List.mem_cons, List.not_mem_nil, or_false] at h
  rcases h with h | h | h <;> rw [h] <;> rfl

theorem linesInv_transfer (rx : Word) {s : State} (h : linesInv s) : linesInv (transfer rx s) := by
  cases hbusy : s.busy with
  | false => rwa [transfer_of_not_busy rx hbusy]
  | true =>
    obtain ⟨hframe, htxn⟩ := (linesInv_of_busy hbusy).mp h
    obtain ⟨hopen, -, ⟨hst, htrace⟩ | ⟨-, hst, htrace⟩⟩ := transfer_of_busy rx hbusy
    · refine (linesInv_of_idle hst).mpr ⟨hopen, ?_, ?_⟩
      · simp [htrace, frameOf_append, hframe, List.foldlM_append, frameEvents_frame, frameStep]
      · simp [htrace, txnOpen_append, txnAfter]
    · refine (linesInv_of_busy (by simp [busy_iff, hst])).mpr ⟨?_, ?_⟩
      · simp [htrace, hopen, frameOf_append, hframe, frameEvents_frame]
      · rw [htrace, txnOpen_append, frameEvents_txn, htxn]

theorem linesInv_stall {s : State} (h : linesInv s) : linesInv (stall s) := by
  obtain ⟨hbusy, hclosed, h'⟩ | h' := stall_cases s
  · obtain ⟨hframe, htxn⟩ := (linesInv_of_busy hbusy).mp h
    rw [h']
    refine (linesInv_of_busy (by simpa [busy_eq] using hbusy)).mpr ⟨?_, ?_⟩
    · simp [frameOf_append, hframe, hclosed, frameStep]
    · simp [txnOpen_append, htxn, txnAfter]
  · rwa [h']

theorem kept_linesInv : Kept linesInv where
  script _ _ _ h := h
  codec _ _ h := h
  acceptInit s a n _ h := by
    refine (linesInv_of_busy rfl).mpr ⟨frameOf_append_accept (linesInv_frame h) _ _ _, ?_⟩
    rw [acceptInit_trace, txnOpen_append]
    rfl
  acceptRead s op a n _ hst h := by
    obtain ⟨-, hframe, -⟩ := (linesInv_of_idle hst).mp h
    refine (linesInv_of_busy rfl).mpr ⟨?_, ?_⟩
    · rw [acceptRead_trace, frameOf_append, hframe]
      rfl
    · rw [acceptRead_trace, txnOpen_append]
      rfl
  transfer _ rx h := linesInv_transfer rx h
  stall _ h := linesInv_stall h
  reset s h := (linesInv_of_uninit (hardwareReset_st s)).mpr ⟨rfl, linesInv_frame (s := s) h⟩

/-! Configuration and LASTCMD in each position -/

theorem sentInv_of_init {s : State} (h : s.st = .init) :
    sentInv s ↔ configuredWith s.trace = some (s.cfg.clockHz, s.cfg.bitOrder, s.cfg.mode) := by
  simp only [sentInv, h]

theorem sentInv_of_used {s : State} (h : s.st = .idle ∨ s.st = .priming ∨ s.st = .steady) : sentInv s ↔
    configuredWith s.trace = some (s.cfg.clockHz, s.cfg.bitOrder, s.cfg.mode) ∧ lastSent s.trace = some s.lastCmd := by
  rcases h with h | h | h <;> simp only [sentInv, h]

theorem sentInv_configured {s : State} (hst : s.st ≠ .uninit) (h : sentInv s) :
    configuredWith s.trace = some (s.cfg.clockHz, s.cfg.bitOrder, s.cfg.mode) := by
  match hst' : s.st with
  | .uninit => exact absurd hst' hst
  | .init => exact (sentInv_of_init hst').mp h
  | .idle | .priming | .steady => exact ((sentInv_of_used (by simp [hst'])).mp h).1

theorem lastSent_txnEnd : lastSent [.txnEnd] = none := rfl

theorem sentInv_transfer (rx : Word) {s : State} (h : sentInv s) : sentInv (transfer rx s) := by
  cases hbusy : s.busy with
  | false => rwa [transfer_of_not_busy rx hbusy]
  | true =>
    have hconf := sentInv_configured (fun hst => by simp [busy_iff, hst] at hbusy) h
    obtain ⟨-, -, -, hcfg, -⟩ := transfer_frame rx s
    obtain ⟨-, hlast, ⟨hst, htrace⟩ | ⟨-, hst, htrace⟩⟩ := transfer_of_busy rx hbusy
    · refine (sentInv_of_used (.inl hst)).mpr ⟨?_, ?_⟩
      · simp [htrace, hcfg, configuredWith_append, frameEvents_config, configAfter, hconf]
      · simp [htrace, hlast, lastSent_append, frameEvents_lastSent, lastSent_txnEnd]
    · refine (sentInv_of_used (.inr (.inr hst))).mpr ⟨?_, ?_⟩
      · rw [htrace, hcfg, configuredWith_append, frameEvents_config, hconf]
      · rw [htrace, hlast, lastSent_append, frameEvents_lastSent, Option.some_or]

theorem sentInv_stall {s : State} (h : sentInv s) : sentInv (stall s) := by
  obtain ⟨-, -, h'⟩ | h' := stall_cases s
  · have hconf : configuredWith (s.trace ++ [.csAssert]) = configuredWith s.trace := by rw [configuredWith_append]; rfl
    have hlast : lastSent (s.trace ++ [.csAssert]) = lastSent s.trace := by rw [lastSent_append]; rfl
    rw [h']
    simpa only [sentInv, emit_st, emit_trace, emit_cfg, emit_lastCmd, hconf, hlast] using h
  · rwa [h']

theorem kept_sentInv : Kept sentInv where
  script _ _ _ h := h
  codec _ _ h := h
  acceptInit s a n _ h := by
    refine (sentInv_of_init rfl).mpr ?_
    rw [acceptInit_trace, configuredWith_append]
    rfl
  acceptRead s op a n _ hst h := by
    obtain ⟨hconf, hlast⟩ := (sentInv_of_used (.inl hst)).mp h
    refine (sentInv_of_used (.inr (.inl rfl))).mpr ⟨?_, ?_⟩
    · rw [acceptRead_trace, configuredWith_append, hconf]
      rfl
    · rw [acceptRead_trace, lastSent_append, hlast]
      rfl
  transfer _ rx h := sentInv_transfer rx h
  stall _ h := sentInv_stall h
  reset _ _ := trivial

/-! The words sent -/

/-- Events appended keep the invariant if the words they send are the engine's. -/
theorem wordsInv_append {s t : State} (h : wordsInv s) (hmode : t.readAllScanMode = s.readAllScanMode) {es : List Event}
    (htrace : t.trace = s.trace ++ es) (hsent : ∀ w ∈ sent es, engineWord s.readAllScanMode w) : wordsInv t := by
  intro w hw
  rw [htrace, sent_append, List.mem_append] at hw
  rw [hmode]
  exact hw.elim (h w) (hsent w)

theorem wordsInv_transfer (rx : Word) {s : State} (h : wordsInv s) : wordsInv (transfer rx s) := by
  cases hbusy : s.busy with
  | false => rwa [transfer_of_not_busy rx hbusy]
  | true =>
    have hword : ∀ w ∈ sent (frameEvents s.inXfer (transferWord s) rx), engineWord s.readAllScanMode w := by
      simpa [frameEvents_sent] using engineWord_transferWord s
    have hend : sent [.txnEnd] = [] := rfl
    obtain ⟨-, -, -, -, hmode, -⟩ := transfer_frame rx s
    obtain ⟨-, -, ⟨-, htrace⟩ | ⟨-, -, htrace⟩⟩ := transfer_of_busy rx hbusy
    · exact wordsInv_append h hmode htrace (by rwa [sent_append, hend, List.append_nil])
    · exact wordsInv_append h hmode htrace hword

theorem kept_wordsInv : Kept wordsInv where
  script _ _ _ h := h
  codec _ _ h := h
  acceptInit s a n _ h := wordsInv_append h rfl (acceptInit_trace a n s) nofun
  acceptRead s op a n _ _ h := wordsInv_append h rfl (acceptRead_trace op a n s) nofun
  transfer _ rx h := wordsInv_transfer rx h
  stall s h := by
    obtain ⟨-, -, h'⟩ | h' := stall_cases s <;> rw [h']
    · exact wordsInv_append h rfl (emit_trace s _) nofun
    · exact h
  reset _ h := h

theorem kept_inv : Kept Inv := kept_seqInv.and (kept_linesInv.and (kept_sentInv.and kept_wordsInv))

theorem inv_reset : Inv State.reset :=
  ⟨trivial, (linesInv_of_uninit rfl).mpr ⟨rfl, List.mem_cons_self⟩, trivial, nofun⟩

end Sys2Proof.Machine
end

section
/-! What unbroken framing says of the chip-select line and of SETTLE (20_memory R54, 70_reset R222). -/

namespace Sys2Proof.Machine

/-- The chip-select line where the framing stands. -/
def Frame.line : Frame → CsLine
  | .start => .undriven
  | .released | .ready => .high
  | .asserted | .exchanged => .low

theorem csAfter_of_frameStep {f g : Frame} {e : Event} (h : frameStep f e = some g) : csAfter f.line e = g.line := by
  cases e
  case csDeassert =>
    obtain ⟨-, hg⟩ := Option.ite_none_left_eq_some.mp h
    obtain rfl := Option.some.inj hg
    rfl
  case csAssert | settle | xchg | configure | txnBegin | txnEnd =>
    obtain ⟨rfl, hg⟩ := Option.ite_none_right_eq_some.mp h
    obtain rfl := Option.some.inj hg
    rfl

theorem foldl_csAfter_of_frame {es : List Event} {f g : Frame} (h : es.foldlM frameStep f = some g) :
    es.foldl csAfter f.line = g.line := by
  induction es generalizing f with
  | nil => exact congrArg Frame.line (Option.some.inj h)
  | cons e es ih =>
    rw [List.foldlM_cons] at h
    obtain ⟨f', hstep, hrest⟩ := Option.bind_eq_some_iff.mp h
    rw [List.foldl_cons, csAfter_of_frameStep hstep, ih hrest]

/-- The trace leaves the line as its framing stands. -/
theorem csLine_of_frameOf {es : List Event} {g : Frame} (h : frameOf es = some g) : csLine es = g.line :=
  foldl_csAfter_of_frame h

/-- A release goes on with SETTLE or not at all. -/
theorem settle_of_released {es : List Event} {g : Frame} (h : es.foldlM frameStep .released = some g) (hg : g ≠ .released) :
    ∃ es', es = .settle :: es' := by
  cases es with
  | nil => exact absurd (Option.some.inj h).symm hg
  | cons e es =>
    cases e
    case settle => exact ⟨es, rfl⟩
    all_goals cases h

theorem settleFollows_of_frame {es : List Event} {f g : Frame} (h : es.foldlM frameStep f = some g) (hg : g ≠ .released) :
    settleFollows es = true := by
  induction es generalizing f with
  | nil => rfl
  | cons e es ih =>
    rw [List.foldlM_cons] at h
    obtain ⟨f', hstep, hrest⟩ := Option.bind_eq_some_iff.mp h
    have hes := ih hrest
    cases e
    case csDeassert =>
      have hreleased : f' = .released := by
        obtain ⟨-, hg'⟩ := Option.ite_none_left_eq_some.mp hstep
        exact (Option.some.inj hg').symm
      obtain ⟨es', rfl⟩ := settle_of_released (hreleased ▸ hrest) hg
      exact hes
    all_goals exact hes

end Sys2Proof.Machine

namespace Sys2Proof.InvariantStatements
open Sys2Proof Sys2Proof.Machine

/-- Settles O26: nothing has been emitted, so every view of the trace is empty. -/
theorem invariantHoldsAtReset : Obligations.InvariantHoldsAtReset := inv_reset

/-- Settles O27: each of the four parts is kept by every act of a step. -/
theorem stepKeepsInvariant : Obligations.StepKeepsInvariant := fun _ _ h hstep => kept_inv.step h hstep

/-- Settles O30: the framing is unbroken and in no position stands inside a release. -/
theorem settleFollowsEveryRelease : Obligations.SettleFollowsEveryRelease := by
  rintro s ⟨-, hlines, -⟩
  have hframe := linesInv_frame hlines
  simp only [List.mem_cons, List.not_mem_nil, or_false] at hframe
  rcases hframe with h | h | h <;> exact settleFollows_of_frame h (by decide)

/-- Settles O31: the line where the framing stands in IDLE and while BUSY. -/
theorem chipSelectLineFollowsPosition : Obligations.ChipSelectLineFollowsPosition := by
  rintro s ⟨-, hlines, -⟩
  refine ⟨fun hidle => ?_, fun hbusy => ?_⟩
  · obtain ⟨-, hframe, -⟩ := (linesInv_of_idle hidle).mp hlines
    exact csLine_of_frameOf hframe
  · obtain ⟨hframe, -⟩ := (linesInv_of_busy hbusy).mp hlines
    rw [csLine_of_frameOf hframe]
    cases s.inXfer <;> rfl

end Sys2Proof.InvariantStatements
end

section
/-! What operations other than INIT put on the bus (41_engine R135). -/

namespace Sys2Proof.Machine

/-- Events a read operation may emit: no CONFIGURE, and only read words sent. -/
def ReadEvents (es : List Event) : Prop :=
  (∀ hz order mode, Event.configure hz order mode ∉ es) ∧ ∀ w ∈ sent es, ReadWord w

theorem readEvents_nil : ReadEvents [] := ⟨nofun, nofun⟩

theorem ReadEvents.append {es es' : List Event} (h : ReadEvents es) (h' : ReadEvents es') : ReadEvents (es ++ es') := by
  refine ⟨fun hz order mode hmem => ?_, fun w hw => ?_⟩
  · exact (List.mem_append.mp hmem).elim (h.1 hz order mode) (h'.1 hz order mode)
  · rw [sent_append] at hw
    exact (List.mem_append.mp hw).elim (h.2 w) (h'.2 w)

theorem readEvents_txnBegin : ReadEvents [.txnBegin] := ⟨by simp, nofun⟩

theorem readEvents_txnEnd : ReadEvents [.txnEnd] := ⟨by simp, nofun⟩

theorem readEvents_frameEvents (opened : Bool) {tx : Word} (h : ReadWord tx) (rx : Word) :
    ReadEvents (frameEvents opened tx rx) := by
  refine ⟨fun hz order mode => ?_, fun w hw => ?_⟩
  · cases opened <;> simp
  · rw [frameEvents_sent] at hw
    rwa [List.mem_singleton.mp hw]

/-- A read operation is in progress or over, begun where the trace was `es₀`, and has emitted only what it may. -/
def Reading (es₀ : List Event) (t : State) : Prop :=
  t.op ≠ .init ∧ t.st ≠ .init ∧ ∃ es, t.trace = es₀ ++ es ∧ ReadEvents es

theorem reading_acceptRead {op : Op} (hop : op ≠ .init) (a : SignedOp) (n : Count) (s : State) :
    Reading s.trace (acceptRead op a n s) := ⟨hop, nofun, _, rfl, readEvents_txnBegin⟩

theorem reading_transfer (rx : Word) {es₀ : List Event} {s : State} (h : Reading es₀ s) : Reading es₀ (transfer rx s) := by
  cases hbusy : s.busy with
  | false => rwa [transfer_of_not_busy rx hbusy]
  | true =>
    obtain ⟨hop, hst, es, hes, hread⟩ := h
    obtain ⟨hop', -⟩ := transfer_frame rx s
    have hword := readEvents_frameEvents s.inXfer (readWord_transferWord hbusy hop hst) rx
    obtain ⟨-, -, ⟨hst', htrace⟩ | ⟨-, hst', htrace⟩⟩ := transfer_of_busy rx hbusy
    · refine ⟨hop' ▸ hop, by simp [hst'], _, ?_, hread.append (hword.append readEvents_txnEnd)⟩
      rw [htrace, hes, List.append_assoc]
    · refine ⟨hop' ▸ hop, by simp [hst'], _, ?_, hread.append hword⟩
      rw [htrace, hes, List.append_assoc]

theorem reading_present {op : Op} (hop : op ≠ .init) (a : SignedOp) (n : Count) (s : State) :
    ∃ es, (present op a n s).trace = s.trace ++ es ∧ ReadEvents es := by
  cases hacc : accepts s.st op with
  | false => exact ⟨[], by rw [present_refused hacc, List.append_nil], readEvents_nil⟩
  | true =>
    rw [present_accepted hacc, accept_read hop]
    have hrun : Reading s.trace (runOnAnswers s.inputs (acceptRead op a n s)) :=
      runOnAnswers_keeps (fun _ _ h => h) (fun _ rx h => reading_transfer rx h) s.inputs (reading_acceptRead hop a n s)
    obtain ⟨-, -, hes⟩ := hrun
    exact hes

end Sys2Proof.Machine

namespace Sys2Proof.InvariantStatements
open Sys2Proof Sys2Proof.Machine

/-- Settles O32: a codec function emits nothing, and a read operation goes through PRIMING and STEADY only. -/
theorem onlyInitConfigures : Obligations.OnlyInitConfigures := by
  intro i s t hinit hexec
  have hevents : ∃ es, t.trace = s.trace ++ es ∧ ReadEvents es := by
    by_cases hport : i.port = .request
    · obtain ⟨op, a, n, hop, hpresent⟩ := exec_of_request hport
      obtain rfl : present op a n s = t := by simpa [hpresent] using hexec
      refine reading_present (fun h => ?_) a n s
      obtain ⟨a', n', hi⟩ := hop h
      exact hinit a' n' hi
    · obtain ⟨r, hanswer⟩ := exec_of_codec hport
      obtain rfl : s.codecAnswer (r s.readAllScanMode) = t := by simpa [hanswer] using hexec
      exact ⟨[], (List.append_nil _).symm, readEvents_nil⟩
  exact hevents

end Sys2Proof.InvariantStatements
end

section
/-! Single words: the engine's words and the tags outside their range, the bits and bytes on the wire, STATUS (41_engine R131,
R132, 20_memory R55, R56, 10_state R30). -/

namespace Sys2Proof.Machine

/-- A setter shows only in its field. -/
theorem setField_and_not_mask {f : Field} (hf : f.Fits) (w : Word) (v : BitVec f.width) :
    setField f w v &&& ~~~f.mask = w &&& ~~~f.mask := by
  apply BitVec.eq_of_getLsbD_eq
  intro k hk
  rw [BitVec.getLsbD_and, BitVec.getLsbD_and, BitVec.getLsbD_not, f.getLsbD_mask hk, getLsbD_setField hf]
  split
  · next hc => simp [hc]
  · rfl

/-- WITH_CHANNEL shows only in CHANNEL (40_codec R104). -/
theorem withChannel_and_others (w : Word) (ch : Int) : withChannel w ch &&& 0xF87F = w &&& 0xF87F := by
  have hmask : (0xF87F : Word) = ~~~fChannel.mask := by decide
  rw [hmask]
  exact setField_and_not_mask (by decide) w _

theorem manualCmd_fixedBits (c : Int) : manualCmd c &&& 0xF87F = 0x0806 := by
  rw [manualCmd, withChannel_and_others]
  decide

theorem sweepCmd_fixedBits (mode : BitVec 4) (n : Nat) : sweepCmd mode n &&& 0x807F = 0x0006 := by
  have hmask : (0x807F : Word) = 0xF87F &&& 0x807F := by decide
  have hbase : ∀ m : BitVec 4,
      buildWord m ResetScope.none.code PowerMode.normal.code true true false &&& 0xF87F &&& 0x807F = 0x0006 := by decide
  rw [hmask, ← BitVec.and_assoc, sweepCmd, withChannel_and_others]
  exact hbase mode

/-- The clamp of `n - 1` for a count (30_encoding R82). -/
theorem toNat_clamp15_pred (n : Nat) :
    (clamp15 ((n : Int) - 1)).toNat = if n = 0 then 0 else if 16 < n then 15 else n - 1 := by
  unfold clamp15
  split_ifs <;> omega

/-- A tag is one of 0..15 (41_engine R132). -/
theorem tagMatches_outside (rx : Word) {e : Int} (he : e < 0 ∨ 15 < e) : tagMatches rx e = false := by
  have hrx := rx.isLt
  rw [Bool.eq_false_iff, ne_eq, tagMatches_iff]
  omega

theorem validate_outside (rx : Word) {e : Int} (he : e < 0 ∨ 15 < e) : validate rx e = 0 := by
  rw [validate, tagMatches_outside rx he]
  rfl

/-! The wire -/

/-- The first `k` bits received are the `k` top bits of the word (20_memory R55). -/
theorem ofWireBits_take (w : Word) {k : Nat} (hk : k ≤ 16) :
    ofWireBits ((List.range k).map fun j => w.getLsbD (15 - j)) = w >>> (16 - k) := by
  induction k with
  | zero => rw [BitVec.ushiftRight_eq_zero (by decide)]; rfl
  | succ k ih =>
    have hprefix := ih (by omega)
    rw [ofWireBits] at hprefix ⊢
    rw [List.range_succ, List.map_append, List.foldl_append, hprefix]
    apply BitVec.eq_of_getLsbD_eq
    intro i hi
    cases i with
    | zero =>
      have hlast : 16 - (k + 1) = 15 - k := by omega
      simp [hlast]
    | succ i =>
      have hshift : 16 - k + i = 16 - (k + 1) + (i + 1) := by omega
      simp [hshift, hi]

/-- A word above another in one word is a sum of numbers. -/
theorem toNat_append_eq_add {m n : Nat} (x : BitVec m) (y : BitVec n) : (x ++ y).toNat = x.toNat * 2 ^ n + y.toNat := by
  rw [BitVec.toNat_append, ← Nat.shiftLeft_add_eq_or_of_lt y.isLt, Nat.shiftLeft_eq]

theorem joinBytes_eq_ofNat (hi lo : BitVec 8) : joinBytes hi lo = BitVec.ofNat 16 (hi.toNat * 256 + lo.toNat) := by
  have hnat : hi.toNat * 256 + lo.toNat = (hi ++ lo).toNat := (toNat_append_eq_add hi lo).symm
  rw [joinBytes, hnat, BitVec.ofNat_toNat, BitVec.setWidth_append_eq_shiftLeft_setWidth_or]

/-! STATUS -/

theorem toNat_statusWord (s : State) : s.statusWord.toNat =
    s.lenSeen.toNat * 32 + s.okSeen.toNat * 16 + s.busy.toNat * 8 + s.st.code.toNat := by
  have hsum : (0#6 ++ s.lenSeen ++ BitVec.ofBool s.okSeen ++ BitVec.ofBool s.busy ++ s.st.code).toNat =
      s.lenSeen.toNat * 32 + s.okSeen.toNat * 16 + s.busy.toNat * 8 + s.st.code.toNat := by
    simp only [toNat_append_eq_add, BitVec.toNat_ofNat, BitVec.toNat_ofBool]
    omega
  exact hsum

theorem lenSeen_of_not_busy {s : State} (h : s.busy = false) : s.lenSeen = s.len := by simp [State.lenSeen, h]

theorem okSeen_of_not_busy {s : State} (h : s.busy = false) : s.okSeen = s.ok := by simp [State.okSeen, h]

theorem busy_toNat_iff (s : State) : s.busy.toNat = 1 ↔ s.st = .init ∨ s.st = .priming ∨ s.st = .steady := by
  rw [← busy_iff]
  cases s.busy <;> decide

end Sys2Proof.Machine

namespace Sys2Proof.WordStatements
open Sys2Proof Sys2Proof.Machine

/-- Settles O47: the words by their values; the codec's own answer in every state. -/
theorem engineWordsHaveTheirValues : Obligations.EngineWordsHaveTheirValues := by
  refine ⟨fun c s => ⟨manualCmd c, rfl, toNat_manualCmd c, manualCmd_fixedBits c⟩, fun n s =>
    ⟨sweepCmd s.readAllScanMode n, rfl, ?_, sweepCmd_fixedBits _ n⟩⟩
  rw [toNat_sweepCmd, sweepValue, toNat_clamp15_pred]

/-- Settles O48: tag and payload are quotient and remainder by 4096, and a quotient of a word is at most 15. -/
theorem tagMatchIsIntegerEquality : Obligations.TagMatchIsIntegerEquality := fun rx e =>
  ⟨tagMatches_iff rx e, tagMatches_outside rx, toNat_validate rx e⟩

/-- Settles O37: reading back all 16 bits shifts nothing out. -/
theorem wireOrderIsMsbFirst : Obligations.WireOrderIsMsbFirst := by
  refine fun w => ⟨by simp [wireBits], fun k hk => by simp [wireBits, hk], ?_⟩
  exact ofWireBits_take w le_rfl

/-- Settles O38: joining the bytes makes the word of the other answer. -/
theorem twoByteExchangeIsHighFirst : Obligations.TwoByteExchangeIsHighFirst := by
  refine ⟨fun s hi lo rest hin => ?_, fun w => ⟨?_, ?_⟩⟩
  · rw [step_of_answerBytes hin, step_of_answer rfl, joinBytes_eq_ofNat]
    rfl
  · change (w.extractLsb' 8 8).toNat = w.toNat / 256
    have hw := w.isLt
    rw [toNat_extractLsb'_eq]
    omega
  · change (w.extractLsb' 0 8).toNat = w.toNat % 256
    rw [toNat_extractLsb'_eq]
    omega

/-- Settles O35: STATUS is the sum of its fields, each less than the weight of the next. -/
theorem statusShowsItsFields : Obligations.StatusShowsItsFields := by
  intro s
  have hcode := s.st.code.isLt
  have hbusy := s.busy.toNat_le
  have hok := s.okSeen.toNat_le
  have hlen := s.lenSeen.isLt
  have hsum := toNat_statusWord s
  refine ⟨?state, ?busy, ?zeros, fun hidle => ?results, rfl⟩
  case state =>
    have hfield : s.statusWord.toNat % 8 = s.st.code.toNat := by omega
    rw [hfield]
    cases s.st <;> rfl
  case busy =>
    rw [← busy_toNat_iff]
    omega
  case zeros => omega
  case results =>
    rw [lenSeen_of_not_busy hidle, okSeen_of_not_busy hidle] at *
    omega

/-- Settles O33: STATE is UNINIT, and with nothing at the inputs and no operation nothing happens. -/
theorem resetLeavesUninit : Obligations.ResetLeavesUninit := by
  have hsum := toNat_statusWord State.reset
  have hcode : State.reset.st.code.toNat = 0 := rfl
  have hbusy : State.reset.busy.toNat = 0 := rfl
  have hok := State.reset.okSeen.toNat_le
  have hlen := State.reset.lenSeen.isLt
  refine ⟨rfl, rfl, rfl, rfl, ?_, ?_, rfl⟩
  · apply BitVec.eq_of_toNat_eq
    change (State.reset.statusWord.extractLsb' _ _).toNat = 0
    rw [toNat_extractLsb'_eq]
    omega
  · apply BitVec.eq_of_toNat_eq
    change (State.reset.statusWord.extractLsb' _ _).toNat = 0
    rw [toNat_extractLsb'_eq]
    omega

end Sys2Proof.WordStatements
end

section
/-! The sequencer step by step: acceptance with no answer at hand, one answered exchange, a waiting exchange (42_sequencer R162
to R168, 20_memory R63). -/

namespace Sys2Proof.Machine

/-- A request accepted with no answer at hand stops after its accept step (log 7). -/
theorem exec_request_waiting {op : Op} {s : State} (hacc : accepts s.st op = true) (hwait : noAnswerAtHand s.inputs)
    (a : SignedOp) (n : Count) : exec (requestInstr op a n) s = .next (accept op a n s) := by
  rw [exec_requestInstr, present_accepted hacc, runOnAnswers_of_noAnswer hwait]

/-- The exchange is begun: chip-select asserted, the word not yet returned (R63). -/
def beginExchange (s : State) : State := { s.emit [.csAssert] with inXfer := true }

theorem stall_of_closed {s : State} (hbusy : s.busy = true) (hclosed : s.inXfer = false) : stall s = beginExchange s := by
  simp [stall, hbusy, hclosed, beginExchange]

theorem stall_of_opened {s : State} (hopen : s.inXfer = true) : stall s = s := by
  simp [stall, hopen]

theorem stall_of_not_busy {s : State} (hbusy : s.busy = false) : stall s = s := by
  simp [stall, hbusy]

/-! One answered exchange -/

theorem transferWord_of_priming {s : State} (h : s.st = .priming) :
    transferWord s = primeCmd s.readAllScanMode s.op s.a s.n := by
  simp only [transferWord, h]

theorem lastCmd_transfer_of_priming (rx : Word) {s : State} (h : s.st = .priming) :
    (transfer rx s).lastCmd = primeCmd s.readAllScanMode s.op s.a s.n := by
  obtain ⟨-, hlast, -⟩ := transfer_of_busy rx (s := s) (by simp [busy_iff, h])
  rw [hlast, transferWord_of_priming h]

theorem total_ne_zero {op : Op} {n : Count} (hop : op ≠ .init) (h : op = .readChannel ∨ n.toNat ≠ 0) :
    total op n ≠ 0 := by
  cases op
  case init => exact absurd rfl hop
  case readChannel => exact Nat.one_ne_zero
  case readRange | readAll => exact h.resolve_left nofun

theorem total_of_counted {op : Op} (h : op = .readRange ∨ op = .readAll) (n : Count) : total op n = n.toNat := by
  rcases h with rfl | rfl <;> rfl

/-- A harvest with results left: IDX one higher, IDLE exactly at the last (R166). -/
theorem transfer_of_steady (rx : Word) {s : State} (h : s.st = .steady) (hleft : s.idx.toNat < total s.op s.n) :
    (transfer rx s).idx.toNat = s.idx.toNat + 1 ∧
      (transfer rx s).st = (if s.idx.toNat + 1 = total s.op s.n then .idle else .steady) ∧
      (transfer rx s).lastCmd = steadyCmd s.readAllScanMode s.op s.a s.n s.idx := by
  have hidx := toNat_idx_succ hleft
  by_cases hlast : s.idx.toNat + 1 = total s.op s.n
  · rw [transfer_of_steady_last rx h hlast, if_pos hlast]
    exact ⟨hidx, rfl, rfl⟩
  · rw [transfer_of_steady_more rx h hlast, if_neg hlast]
    exact ⟨hidx, h, rfl⟩

/-- The same where the request says how many results there are. -/
theorem transfer_of_counted (rx : Word) {s : State} (hop : s.op = .readRange ∨ s.op = .readAll) (h : s.st = .steady)
    (hleft : s.idx.toNat < s.n.toNat) :
    (transfer rx s).idx.toNat = s.idx.toNat + 1 ∧
      (transfer rx s).st = (if s.idx.toNat + 1 = s.n.toNat then .idle else .steady) ∧
      (transfer rx s).lastCmd = steadyCmd s.readAllScanMode s.op s.a s.n s.idx := by
  have hsteady := transfer_of_steady rx h (hleft.trans_eq (total_of_counted hop s.n).symm)
  rwa [total_of_counted hop s.n] at hsteady

/-! A run of steps -/

theorem run_succ {s t : State} (h : step s = .next t) (k : Nat) : Sys2Proof.core.run (k + 1) s = Sys2Proof.core.run k t := by
  simp only [Host.Core.run, core, h]

/-- While an exchange is open and no answer comes, a step moves on the script, the counter and at most the codec's output. -/
theorem step_of_unanswered {s : State} (hbusy : s.busy = true) (hopen : s.inXfer = true)
    (hins : ∀ i ∈ s.inputs, i.word? = none ∧ i ≠ .hwReset) :
    ∃ k c, step s = .next { s with inputs := s.inputs.tail, free := k, codecOut := c } := by
  have hrefuses (op : Op) : accepts s.st op = false := by
    rcases (busy_iff s).mp hbusy with hst | hst | hst <;> rw [hst] <;> rfl
  match hin : s.inputs with
  | [] =>
    refine ⟨s.free, s.codecOut, ?_⟩
    rw [step_of_nothing hin, stall_of_opened hopen, List.tail_nil, ← hin]
  | .call p ws :: rest =>
    match hd : decode p ws with
    | .error r => exact ⟨_, _, step_of_rejected hin hd⟩
    | .ok i =>
      rw [step_of_call hin hd]
      by_cases hport : i.port = .request
      · obtain ⟨op, a, n, -, hexec⟩ := exec_of_request hport
        refine ⟨s.free + 1, s.codecOut, (hexec _).trans ?_⟩
        rw [present_refused (s := s.consume rest) (hrefuses op)]
        rfl
      · obtain ⟨r, hexec⟩ := exec_of_codec hport
        exact ⟨_, _, hexec _⟩
  | .stall :: rest =>
    refine ⟨s.free + 1, s.codecOut, (step_of_stall hin).trans ?_⟩
    rw [stall_of_opened (s := s.consume rest) hopen]
    rfl
  | .answer rx :: rest | .answerBytes hi lo :: rest | .hwReset :: rest =>
    rw [hin] at hins
    simp [Input.word?] at hins

theorem run_of_unanswered (k : Nat) {s : State} (hbusy : s.busy = true) (hopen : s.inXfer = true)
    (hins : ∀ i ∈ s.inputs, i.word? = none ∧ i ≠ .hwReset) :
    ∃ ins free c, Sys2Proof.core.run k s = .next { s with inputs := ins, free := free, codecOut := c } := by
  induction k generalizing s with
  | zero => exact ⟨s.inputs, s.free, s.codecOut, rfl⟩
  | succ k ih =>
    obtain ⟨free, c, hstep⟩ := step_of_unanswered hbusy hopen hins
    rw [run_succ hstep]
    exact ih hbusy hopen fun i hi => hins i (List.mem_of_mem_tail hi)

/-! A run in which each exchange waits for a step -/

/-- The same machine at another place of the script. -/
def State.withScript (s : State) (ins : List Input) (k : Nat) : State := { s with inputs := ins, free := k }

@[simp] theorem withScript_withScript (s : State) (ins ins' : List Input) (k k' : Nat) :
    (s.withScript ins k).withScript ins' k' = s.withScript ins' k' := rfl

@[simp] theorem withScript_inputs (s : State) (ins : List Input) (k : Nat) : (s.withScript ins k).inputs = ins := rfl

/-- No transfer reads or writes the script and the counter. -/
theorem transfer_withScript (rx : Word) (s : State) (ins : List Input) (k : Nat) :
    transfer rx (s.withScript ins k) = (transfer rx s).withScript ins k := by
  match hst : s.st with
  | .uninit => rw [transfer_of_uninit rx hst, transfer_of_uninit rx (s := s.withScript ins k) hst]
  | .idle => rw [transfer_of_idle rx hst, transfer_of_idle rx (s := s.withScript ins k) hst]
  | .init => rw [transfer_of_init rx hst, transfer_of_init rx (s := s.withScript ins k) hst]; rfl
  | .priming =>
    by_cases ht : total s.op s.n = 0
    · rw [transfer_of_priming_empty rx hst ht, transfer_of_priming_empty rx (s := s.withScript ins k) hst ht]; rfl
    · rw [transfer_of_priming_more rx hst ht, transfer_of_priming_more rx (s := s.withScript ins k) hst ht]; rfl
  | .steady =>
    by_cases ht : s.idx.toNat + 1 = total s.op s.n
    · rw [transfer_of_steady_last rx hst ht, transfer_of_steady_last rx (s := s.withScript ins k) hst ht]; rfl
    · rw [transfer_of_steady_more rx hst ht, transfer_of_steady_more rx (s := s.withScript ins k) hst ht]; rfl

theorem stall_withScript (s : State) (ins : List Input) (k : Nat) :
    stall (s.withScript ins k) = (stall s).withScript ins k := by
  change (if s.busy && !s.inXfer then _ else _) = State.withScript (if s.busy && !s.inXfer then _ else _) ins k
  split <;> rfl

/-- The transfers of an operation made one after another, answered by these words. -/
def transfers (rxs : List Word) (s : State) : State := rxs.foldl (fun u rx => transfer rx u) s

@[simp] theorem transfers_cons (rx : Word) (rxs : List Word) (s : State) :
    transfers (rx :: rxs) s = transfers rxs (transfer rx s) := rfl

theorem transfers_of_not_busy (rxs : List Word) {s : State} (h : s.busy = false) : transfers rxs s = s := by
  induction rxs with
  | nil => rfl
  | cons rx rxs ih => rw [transfers_cons, transfer_of_not_busy rx h, ih]

theorem transfers_withScript (rxs : List Word) (s : State) (ins : List Input) (k : Nat) :
    transfers rxs (s.withScript ins k) = (transfers rxs s).withScript ins k := by
  induction rxs generalizing s with
  | nil => rfl
  | cons rx rxs ih => rw [transfers_cons, transfer_withScript, ih, transfers_cons]

/-- The run on the answers at hand makes their transfers; answers left over when the operation ends stay in the script. -/
theorem runOnAnswers_withScript (rxs : List Word) (s : State) (ins : List Input) (k : Nat) :
    (runOnAnswers (answers rxs) s).withScript ins k = (transfers rxs s).withScript ins k := by
  induction rxs generalizing s with
  | nil => rfl
  | cons rx rxs ih =>
    cases hbusy : s.busy with
    | false => rw [runOnAnswers_of_not_busy _ hbusy, transfers_of_not_busy _ hbusy]
    | true =>
      change (runOnAnswers (.answer rx :: answers rxs) s).withScript ins k = _
      rw [runOnAnswers_busy rfl _ hbusy, ih]
      change (transfers (rx :: rxs) (s.withScript (answers rxs) s.free)).withScript ins k = _
      rw [transfers_withScript, withScript_withScript]

/-- What R172 says of the run at hand, for the transfers one by one. -/
theorem transfers_accept_eq_operation {s : State} {op : Op} (a : SignedOp) (n : Count) {rxs : List Word}
    (hst : s.st = .idle ∨ (s.st = .uninit ∧ op = .init)) (hlength : rxs.length = total op n + 1) (ins : List Input) (k : Nat) :
    (transfers rxs (accept op a n s)).withScript ins k = (operation op a n rxs s).withScript ins k := by
  have hatHand := present_eq_operation (s := s.withScript (answers rxs) s.free) a n (rest := []) hst hlength
    (List.append_nil _).symm
  rw [present_accepted (s := s.withScript (answers rxs) s.free) ((accepts_iff s.st op).mpr hst)] at hatHand
  have hsame := congrArg (·.withScript ins k) hatHand
  simp only [withScript_inputs, runOnAnswers_withScript] at hsame
  have haccept : accept op a n (s.withScript (answers rxs) s.free) = (accept op a n s).withScript (answers rxs) s.free := by
    cases op <;> rfl
  have hoperation : operation op a n rxs (s.withScript (answers rxs) s.free) =
      (operation op a n rxs s).withScript (answers rxs) s.free := by
    cases op <;> rfl
  rw [haccept, hoperation, transfers_withScript] at hsame
  exact hsame

/-- A transfer whose frame is open already adds what is left of it (20_memory R53, R63). -/
theorem xfer_beginExchange (tx rx : Word) {s : State} (hclosed : s.inXfer = false) :
    xfer tx rx (beginExchange s) = xfer tx rx s := by
  apply State.ext
  case trace => simp [beginExchange, hclosed]
  all_goals rfl

theorem transfer_beginExchange (rx : Word) {s : State} (hclosed : s.inXfer = false) (hbusy : s.busy = true) :
    transfer rx (beginExchange s) = transfer rx s := by
  have hxfer (tx : Word) := xfer_beginExchange tx rx hclosed
  rcases (busy_iff s).mp hbusy with hst | hst | hst
  · rw [transfer_of_init rx hst, transfer_of_init rx (s := beginExchange s) hst, hxfer]
  · by_cases ht : total s.op s.n = 0
    · rw [transfer_of_priming_empty rx hst ht, transfer_of_priming_empty rx (s := beginExchange s) hst ht, hxfer]; rfl
    · rw [transfer_of_priming_more rx hst ht, transfer_of_priming_more rx (s := beginExchange s) hst ht, hxfer]; rfl
  · by_cases ht : s.idx.toNat + 1 = total s.op s.n
    · rw [transfer_of_steady_last rx hst ht, transfer_of_steady_last rx (s := beginExchange s) hst ht, hxfer]; rfl
    · rw [transfer_of_steady_more rx hst ht, transfer_of_steady_more rx (s := beginExchange s) hst ht, hxfer]; rfl

/-- An exchange begun first and answered a step later is the exchange answered at once. -/
theorem transfer_stall (rx : Word) {s : State} (hclosed : s.inXfer = false) : transfer rx (stall s) = transfer rx s := by
  cases hbusy : s.busy with
  | false => rw [stall_of_not_busy hbusy]
  | true => rw [stall_of_closed hbusy hclosed, transfer_beginExchange rx hclosed hbusy]

theorem transfer_closed (rx : Word) {s : State} (hclosed : s.inXfer = false) : (transfer rx s).inXfer = false := by
  cases hbusy : s.busy with
  | false => rwa [transfer_of_not_busy rx hbusy]
  | true => exact (transfer_of_busy rx hbusy).1

/-- An exchange kept waiting for a step and then answered: one transfer in two steps. -/
theorem run_stall_answer (rx : Word) (rest : List Input) {s : State} (hclosed : s.inXfer = false) (k j : Nat) :
    Sys2Proof.core.run (j + 1 + 1) (s.withScript (.stall :: .answer rx :: rest) k) =
      Sys2Proof.core.run j ((transfer rx s).withScript rest (k + 2)) := by
  have hstall : step (s.withScript (.stall :: .answer rx :: rest) k) =
      .next ((stall s).withScript (.answer rx :: rest) (k + 1)) :=
    (step_of_stall rfl).trans (congrArg _ (stall_withScript s _ _))
  have hanswer : step ((stall s).withScript (.answer rx :: rest) (k + 1)) =
      .next (transfer rx ((stall s).withScript rest (k + 2))) := step_of_answer rfl
  rw [run_succ hstall, run_succ hanswer, transfer_withScript, transfer_stall rx hclosed]

/-- Two steps for each transfer, through a whole list of answers. -/
theorem run_lateAnswers (rxs : List Word) (rest : List Input) {s : State} (hclosed : s.inXfer = false) (k : Nat) :
    Sys2Proof.core.run (2 * rxs.length) (s.withScript (lateAnswers rxs ++ rest) k) =
      .next ((transfers rxs s).withScript rest (k + 2 * rxs.length)) := by
  induction rxs generalizing s k with
  | nil => rfl
  | cons rx rxs ih =>
    have hcount : k + 2 + 2 * rxs.length = k + 2 * (rx :: rxs).length := by
      rw [List.length_cons]
      omega
    calc Sys2Proof.core.run (2 * (rx :: rxs).length) (s.withScript (lateAnswers (rx :: rxs) ++ rest) k)
        _ = Sys2Proof.core.run (2 * rxs.length) ((transfer rx s).withScript (lateAnswers rxs ++ rest) (k + 2)) :=
          run_stall_answer rx _ hclosed k _
        _ = .next ((transfers (rx :: rxs) s).withScript rest (k + 2 * (rx :: rxs).length)) := by
          rw [ih (transfer_closed rx hclosed), hcount, transfers_cons]

end Sys2Proof.Machine

namespace Sys2Proof.RunStatements
open Sys2Proof Sys2Proof.Machine

/-- Settles O8: with no answer at hand the accept step of a read is all that runs. -/
theorem acceptedReadWaitsInPriming : Obligations.AcceptedReadWaitsInPriming := by
  rintro s i op a n hst hwait hop rfl
  have hexec := exec_request_waiting ((accepts_iff s.st op).mpr (.inl hst)) hwait a n
  rw [accept_read hop] at hexec
  exact ⟨_, hexec, rfl, rfl, rfl, rfl, rfl, rfl, rfl, rfl, rfl, rfl, rfl⟩

/-- Settles O9: with no answer at hand the accept step of INIT is all that runs. -/
theorem acceptedInitConfiguresBus : Obligations.AcceptedInitConfiguresBus := by
  intro s a n hst hwait
  have hexec := exec_request_waiting (accepts_init hst) hwait a n
  exact ⟨_, hexec, rfl, rfl, rfl, rfl, rfl, rfl, rfl, rfl, rfl, rfl⟩

/-- Settles O15: the accept step, then two steps for each of the transfers that the run at hand makes. -/
theorem stepByStepRunAgrees : Obligations.StepByStepRunAgrees := by
  intro s op a n rxs rest hst hlength hin
  obtain ⟨r0, harvests, hcons⟩ := List.exists_cons_of_length_eq_add_one hlength
  have hwait : noAnswerAtHand (lateAnswers rxs ++ rest) := by simp [hcons, noAnswerAtHand, lateAnswers, Input.word?]
  have hcall : step s = .next (accept op a n (s.consume (lateAnswers rxs ++ rest))) :=
    (step_of_call hin (decode_encode_requestInstr op a n)).trans
      (exec_request_waiting (s := s.consume _) ((accepts_iff s.st op).mpr hst) hwait a n)
  have haccept : accept op a n (s.consume (lateAnswers rxs ++ rest)) =
      (accept op a n s).withScript (lateAnswers rxs ++ rest) (s.free + 1) := by cases op <;> rfl
  have hclosed : (accept op a n s).inXfer = false := by cases op <;> rfl
  rw [Nat.add_comm 1, run_succ hcall, haccept, run_lateAnswers rxs rest hclosed,
    transfers_accept_eq_operation a n hst hlength, Nat.add_assoc, Nat.add_comm 1]
  rfl

/-- Settles O16: every step of the run leaves the position, the latches and the trace as they are. -/
theorem unansweredExchangeBlocksForEver : Obligations.UnansweredExchangeBlocksForEver := by
  intro k s hbusy hopen hins
  obtain ⟨ins, free, c, hrun⟩ := run_of_unanswered k hbusy hopen hins
  exact ⟨_, hrun, rfl, hbusy, hopen, rfl, rfl, rfl, rfl, rfl, rfl⟩

/-- Settles O17: the waiting exchange is begun, whether a stall or nothing at all stands next. -/
theorem stallAssertsChipSelect : Obligations.StallAssertsChipSelect := by
  intro s hbusy hclosed
  refine ⟨fun rest hin => ?_, fun hin => ?_⟩
  · rw [step_of_stall hin, stall_of_closed (s := s.consume rest) hbusy hclosed]
    rfl
  · rw [step_of_nothing hin, stall_of_closed hbusy hclosed]
    rfl

/-- Settles O18: the transfer step of each position, with its word read by its value. -/
theorem transferFollowsStateArrows : Obligations.TransferFollowsStateArrows := by
  intro s rx rest hin
  obtain ⟨hop, ha, hn, -, -, hinputs, -⟩ := transfer_frame rx (s.consume rest)
  refine ⟨transfer rx (s.consume rest), step_of_answer hin, hinputs, hop, ha, hn, fun hst => ?none, fun hst => ?init,
    fun hst hread hmore => ?more, fun hst hcounted hnone => ?empty, fun hst hmanual => ?primeManual,
    fun hst hall => ?primeSweep, fun hst hchannel hidx => ?channel, fun hst hrange hleft => ?range,
    fun hst hall hleft => ?all⟩
  case none =>
    rw [transfer_of_not_busy rx (s := s.consume rest) ((not_busy_iff s).mpr hst)]
    rfl
  case init =>
    rw [transfer_of_init rx (s := s.consume rest) hst]
    exact ⟨rfl, resetWord_eq⟩
  case more =>
    rw [transfer_of_priming_more rx (s := s.consume rest) hst (total_ne_zero hread hmore)]
  case empty =>
    rw [transfer_of_priming_empty rx (s := s.consume rest) hst ((total_of_counted hcounted _).trans hnone)]
    exact ⟨rfl, rfl⟩
  case primeManual =>
    rw [lastCmd_transfer_of_priming rx (s := s.consume rest) hst, ← toNat_manualCmd]
    rcases hmanual with h | h <;> simp only [consume_op, h] <;> rfl
  case primeSweep =>
    rw [lastCmd_transfer_of_priming rx (s := s.consume rest) hst, ← toNat_sweepCmd, consume_op, hall]
    rfl
  case channel =>
    have htotal : total s.op s.n = 1 := by rw [hchannel]; rfl
    have hzero : s.idx.toNat = 0 := by rw [hidx]; rfl
    obtain ⟨hnext, hidle, hlast⟩ := transfer_of_steady rx (s := s.consume rest) hst
      (by rw [consume_idx, consume_op, consume_n, hzero, htotal]; exact Nat.one_pos)
    rw [consume_idx, consume_op, consume_n, hzero, htotal, if_pos rfl] at hidle
    rw [consume_idx, hzero] at hnext
    refine ⟨hidle, BitVec.eq_of_toNat_eq hnext, ?_⟩
    rw [hlast, ← toNat_manualCmd, consume_op, hchannel]
    rfl
  case range =>
    obtain ⟨hidx, hnext, hlast⟩ := transfer_of_counted rx (s := s.consume rest) (.inl hrange) hst hleft
    refine ⟨hidx, hnext, ?_⟩
    rw [hlast, ← toNat_manualCmd, consume_op, hrange]
    rfl
  case all =>
    obtain ⟨hidx, hnext, hlast⟩ := transfer_of_counted rx (s := s.consume rest) (.inr hall) hst hleft
    refine ⟨hidx, hnext, ?_⟩
    rw [hlast, ← toNat_sweepCmd, consume_op, hall]
    rfl

/-- Settles O34: a hardware reset leaves UNINIT, where INIT is accepted and runs as it always does. -/
theorem hardwareResetAbandons : Obligations.HardwareResetAbandons := by
  intro s rx rest hin
  have hword : decode .request [0x0000] = .ok (.init 0 0) := rfl
  have hcall (t : State) (hst : t.st = .uninit) (ht : t.inputs = .call .request [0x0000] :: .answer rx :: rest) :=
    (step_of_call ht hword).trans (EngineStatements.initCompletes (t.consume (.answer rx :: rest)) 0 0 rx rest (.inl hst) rfl)
  refine ⟨_, _, step_of_hwReset hin, hcall (hardwareReset _) rfl rfl, rfl, rfl, rfl, rfl, rfl, rfl, rfl, ?_⟩
  cases s.cfg.bitOrder
  cases s.cfg.mode
  rfl

end Sys2Proof.RunStatements
end

section
/-! What the operation level leaves in the slots, in OK and on the bus, for each operation (41_engine R136 to R141). -/

namespace Sys2Proof.Machine

/-! Slots -/

theorem slotAt_of_validatedSlots {t : State} {count : Nat} {rxs : List Word} {e : Nat → Int} {slot : Vector Payload 32}
    (h : t.slot = validatedSlots count rxs e slot) {i : Count} (hi : i.toNat < count) :
    t.slotAt i = validate (response rxs (i.toNat + 1)) (e i.toNat) := by
  simp only [State.slotAt, h, getElem_validatedSlots, if_pos hi]

/-- A response whose tag is the index is the tag above the validated payload (R132). -/
theorem toNat_of_tagMatches {rx : Word} {i : Nat} (h : tagMatches rx i = true) :
    rx.toNat = i * 4096 + (validate rx i).toNat := by
  have htag := (tagMatches_iff rx i).mp h
  rw [toNat_validate, checkedValue, if_pos htag]
  omega

/-! The words sent -/

theorem sent_transfersEvents {txs rxs : List Word} (h : txs.length = rxs.length) : sent (transfersEvents txs rxs) = txs := by
  rw [sent, exchanges_transfersEvents, List.map_fst_zip h.le]

/-- What an operation emits before its transfers (R134, R136 to R138). -/
def openingEvents (op : Op) (cfg : Cfg) : List Event :=
  match op with
  | .init => [.csDeassert, .settle, .configure cfg.clockHz .msbFirst .mode3, .txnBegin]
  | .readChannel | .readRange | .readAll => [.txnBegin]

theorem sent_openingEvents (op : Op) (cfg : Cfg) : sent (openingEvents op cfg) = [] := by cases op <;> rfl

/-- What an operation emits in all. -/
def operationEvents (op : Op) (a : SignedOp) (n : Count) (rxs : List Word) (s : State) : List Event :=
  openingEvents op s.cfg ++ transfersEvents (requestWords s.readAllScanMode op a n (total op n)) rxs ++ [.txnEnd]

theorem operation_trace (op : Op) (a : SignedOp) (n : Count) (rxs : List Word) (s : State) :
    (operation op a n rxs s).trace = s.trace ++ operationEvents op a n rxs s := by
  simp only [operationEvents, ← List.append_assoc]
  cases op
  case init | readChannel => rfl
  case readRange =>
    rw [total, requestWords_readRange]
    rfl
  case readAll =>
    rw [total, requestWords_readAll]
    rfl

theorem sent_operationEvents (op : Op) (a : SignedOp) (n : Count) {rxs : List Word} (h : rxs.length = total op n + 1)
    (s : State) : sent (operationEvents op a n rxs s) = requestWords s.readAllScanMode op a n (total op n) := by
  have hend : sent [.txnEnd] = [] := rfl
  rw [operationEvents, sent_append, sent_append, sent_openingEvents, hend, List.nil_append, List.append_nil,
    sent_transfersEvents ((length_requestWords ..).trans h.symm)]

/-- With other responses and another script the position, LEN, IDX, LASTCMD and the latches are the same. -/
theorem operation_registers_eq (op : Op) (a : SignedOp) (n : Count) (rxs rxs' : List Word) (s : State) (ins ins' : List Input) :
    let t := operation op a n rxs { s with inputs := ins }
    let t' := operation op a n rxs' { s with inputs := ins' }
    t.st = .idle ∧ t'.st = .idle ∧ t.len = t'.len ∧ t.idx = t'.idx ∧ t.lastCmd = t'.lastCmd ∧ t.op = t'.op ∧ t.a = t'.a ∧
      t.n = t'.n ∧ (op ≠ .readAll → t.ok = t'.ok) := by
  cases op
  case init | readChannel | readRange => exact ⟨rfl, rfl, rfl, rfl, rfl, rfl, rfl, rfl, fun _ => rfl⟩
  case readAll => exact ⟨rfl, rfl, rfl, rfl, rfl, rfl, rfl, rfl, fun h => absurd rfl h⟩

/-! What a completed range read and a completed sweep leave (R137, R138) -/

/-- A completed range read, on these responses. -/
structure RangeRead (start : SignedOp) (count : Count) (rxs : List Word) (s t : State) : Prop where
  st : t.st = .idle
  len : t.len = count
  ok : t.ok = s.ok
  slot : t.slot = validatedSlots count.toNat rxs (fun i => start.toInt + i) s.slot
  trace : t.trace = s.trace ++ operationEvents .readRange start count rxs s

/-- A completed sweep, on these responses. -/
structure Sweep (size : Count) (rxs : List Word) (s t : State) : Prop where
  st : t.st = .idle
  len : t.len = size
  ok : t.ok = (List.range size.toNat).all fun i => tagMatches (response rxs (i + 1)) i
  slot : t.slot = validatedSlots size.toNat rxs (fun i => i) s.slot

theorem exec_readRange_completes (start : SignedOp) {count : Count} {s : State} {rxs : List Word} {rest : List Input}
    (hst : s.st = .idle) (hlength : rxs.length = count.toNat + 1) (hin : s.inputs = answers rxs ++ rest) :
    ∃ t, exec (.readRange start.toInt count.toNat) s = .next t ∧ RangeRead start count rxs s t := by
  refine ⟨{ operation .readRange start count rxs s with inputs := rest }, ?_, ?_⟩
  · exact SequencerStatements.operationAndTransferLevelsAgree s .readRange start count rxs rest (.inl hst) hlength hin
  · constructor
    case trace => exact operation_trace .readRange start count rxs s
    all_goals simp only [operation, operationReadRange]

theorem exec_readAll_completes (a : Int) {size : Count} {s : State} {rxs : List Word} {rest : List Input}
    (hst : s.st = .idle) (hlength : rxs.length = size.toNat + 1) (hin : s.inputs = answers rxs ++ rest) :
    ∃ t, exec (.readAll size.toNat a) s = .next t ∧ Sweep size rxs s t := by
  have hpresent : exec (.readAll size.toNat a) s =
      .next (present .readAll (BitVec.ofInt 8 a) (BitVec.ofNat 5 size.toNat) s) := rfl
  refine ⟨{ operation .readAll (BitVec.ofInt 8 a) size rxs s with inputs := rest }, ?_, ?_⟩
  · rw [hpresent, BitVec.ofNat_toNat, BitVec.setWidth_eq, present_eq_operation _ _ (.inl hst) hlength hin]
  · constructor <;> simp only [operation, operationReadAll]

theorem RangeRead.slotAt {start : SignedOp} {count : Count} {rxs : List Word} {s t : State} (h : RangeRead start count rxs s t)
    {i : Count} (hi : i.toNat < count.toNat) :
    t.slotAt i = validate (response rxs (i.toNat + 1)) (start.toInt + i.toNat) :=
  slotAt_of_validatedSlots h.slot hi

section
variable {size : Count} {rxs : List Word} {s t : State} (h : Sweep size rxs s t)
include h

theorem Sweep.slotAt {i : Count} (hi : i.toNat < size.toNat) :
    t.slotAt i = validate (response rxs (i.toNat + 1)) i.toNat :=
  slotAt_of_validatedSlots h.slot hi

/-- OK after a sweep is the conjunction of its tag checks (R138). -/
theorem Sweep.ok_iff : t.ok = true ↔ ∀ i < size.toNat, tagMatches (response rxs (i + 1)) i = true := by
  simp only [h.ok, List.all_eq_true, List.mem_range]

/-- No sweep of more than 16 channels succeeds: no tag is 16. -/
theorem Sweep.size_le_of_ok (hok : t.ok = true) : size.toNat ≤ 16 := by
  by_contra hlong
  have htag := h.ok_iff.mp hok 16 (by omega)
  rw [tagMatches_outside _ (.inr (by decide))] at htag
  cases htag

end

/-! A range within the 16 channels, answered by a far chip that keeps its contract (20_memory R67) -/

theorem readField_manualCmd_idEnable (c : Int) : readField fChannelIdEnable (manualCmd c) = 1 := by
  have hdefault : readField fChannelIdEnable defaultWord = 1 := by decide
  exact (readField_setField_other (by decide) (by decide) defaultWord _).trans hdefault

theorem readField_manualCmd_channel {c : Int} (h0 : 0 ≤ c) (h15 : c ≤ 15) :
    readField fChannel (manualCmd c) = BitVec.ofInt 4 c := by
  have hfield : readField fChannel (manualCmd c) = clampField c := readField_setField_same (by decide) defaultWord _
  rw [hfield, clampField, clamp15_of_channel h0 h15]

theorem validate_buildResponse {c : Int} (h0 : 0 ≤ c) (h15 : c ≤ 15) (p : Payload) :
    validate (buildResponse (BitVec.ofInt 4 c) p) c = p := by
  have htag : tagMatches (buildResponse (BitVec.ofInt 4 c) p) c = true := by
    rw [tagMatches, decide_eq_true_iff, tagOf_buildResponse, BitVec.toNat_ofInt]
    omega
  rw [validate, if_pos htag, payloadOf_buildResponse]

/-- The contract for one exchange and the next. -/
theorem followsPipeline_next {sample : Chan → Payload} {es : List (Word × Word)} (h : followsPipeline sample es) {k : Nat}
    {tx rx tx' rx' : Word} (hk : es[k]? = some (tx, rx)) (hk' : es[k + 1]? = some (tx', rx'))
    (hid : readField fChannelIdEnable tx = 1) :
    rx' = buildResponse (readField fChannel tx) (sample (readField fChannel tx)) := by
  induction es generalizing k with
  | nil => cases hk
  | cons e es ih =>
    match es, h with
    | [], _ => cases hk'
    | e' :: es', ⟨hfirst, hrest⟩ =>
      cases k with
      | zero =>
        obtain rfl := Option.some.inj hk
        obtain rfl := Option.some.inj hk'
        exact hfirst hid
      | succ k => exact ih hrest hk hk'

/-- While `start + i` is a channel, request `i` of a range asks for it. -/
theorem getElem?_rangeWords {start : Int} {count i : Nat} (h0 : 0 ≤ start) (hi : i ≤ count) (h15 : start + i ≤ 15) :
    (rangeWords start count)[i]? = some (manualCmd (start + i)) := by
  cases i with
  | zero => simp [rangeWords]
  | succ j =>
    have hmod : mod16 (start + j + 1) = start + (j + 1 : Nat) := by
      rw [mod16]
      omega
    have hj : j < count := hi
    simp [rangeWords, hj, hmod]

/-- The response after the request for a channel is validated to the channel's sample. -/
theorem validate_of_followsPipeline {sample : Chan → Payload} {start : Int} {count : Nat} {rxs : List Word} (h0 : 0 ≤ start)
    (h16 : start + count ≤ 16) (hlength : rxs.length = count + 1)
    (h : followsPipeline sample ((rangeWords start count).zip rxs)) {i : Nat} (hi : i < count) :
    validate (response rxs (i + 1)) (start + i) = sample (BitVec.ofInt 4 (start + i)) := by
  have hchan0 : 0 ≤ start + i := by omega
  have hchan15 : start + i ≤ 15 := by omega
  have hwords : (rangeWords start count).length = count + 1 := by simp [rangeWords]
  have hrequest := getElem?_rangeWords h0 hi.le hchan15
  have hnext := List.getElem?_eq_getElem (l := rangeWords start count) (i := i + 1) (by omega)
  have hpair {k : Nat} {tx : Word} (hk : k < count + 1) (htx : (rangeWords start count)[k]? = some tx) :
      ((rangeWords start count).zip rxs)[k]? = some (tx, response rxs k) := by
    rw [List.getElem?_zip_eq_some, response, List.getD_eq_getElem _ _ (hlength ▸ hk)]
    exact ⟨htx, List.getElem?_eq_getElem _⟩
  rw [followsPipeline_next h (hpair (by omega) hrequest) (hpair (by omega) hnext) (readField_manualCmd_idEnable _),
    readField_manualCmd_channel hchan0 hchan15]
  exact validate_buildResponse hchan0 hchan15 _

theorem exchanges_operationEvents_readRange (a : SignedOp) (n : Count) (rxs : List Word) (s : State) :
    exchanges (operationEvents .readRange a n rxs s) = (rangeWords a.toInt n.toNat).zip rxs := by
  have hopening : exchanges (openingEvents .readRange s.cfg) = [] := rfl
  have hend : exchanges [.txnEnd] = [] := rfl
  rw [operationEvents, exchanges_append, exchanges_append, hopening, hend, exchanges_transfersEvents, total,
    requestWords_readRange, List.nil_append, List.append_nil]

end Sys2Proof.Machine

namespace Sys2Proof.ResultStatements
open Sys2Proof Sys2Proof.Machine

/-- Settles O19: no tag equals such an operand. -/
theorem outOfRangeChannelReadsZero : Obligations.OutOfRangeChannelReadsZero := by
  intro s ch n r0 r1 rest hst hfits hout hin
  obtain ⟨x, rfl⟩ := exists_signedOp hfits
  refine ⟨_, EngineStatements.readChannelCompletes s x.toInt n r0 r1 rest hst x.le_toInt (Int.le_of_lt_add_one x.toInt_lt) hin,
    rfl, ?_⟩
  rw [← validate_eq_ofNat, validate_outside r1 hout]
  simp [State.slotAt]

/-- Settles O20: no tag equals the unreduced channel of such a slot. -/
theorem rangeSlotsOutsideChannelsAreZero : Obligations.RangeSlotsOutsideChannelsAreZero := by
  intro s start count rxs rest hst hlength hin
  obtain ⟨t, hexec, hread⟩ := exec_readRange_completes start hst hlength hin
  refine ⟨t, hexec, hread.st, fun i hi hout => ?_⟩
  rw [hread.slotAt hi, validate_outside _ hout]

/-- Settles O21: no tag is 16 or more. -/
theorem longSweepNeverSucceeds : Obligations.LongSweepNeverSucceeds := by
  intro s size a rxs rest hst hlong hlength hin
  obtain ⟨t, hexec, hsweep⟩ := exec_readAll_completes a hst hlength hin
  refine ⟨t, hexec, hsweep.st, ?_, fun i hi hsize => ?_⟩
  · exact Bool.eq_false_iff.mpr fun hok => absurd (hsweep.size_le_of_ok hok) (by omega)
  · rw [hsweep.slotAt hsize, validate_outside _ (.inr (by omega))]

/-- Settles O22: OK holds every tag check, and a checked response is its tag above its payload. -/
theorem sweepFlagVouchesForSlots : Obligations.SweepFlagVouchesForSlots := by
  intro s t size a rxs rest hst hlength hin hexec hok
  obtain ⟨t', hexec', hsweep⟩ := exec_readAll_completes a hst hlength hin
  obtain rfl : t' = t := Host.Outcome.next.inj (hexec'.symm.trans hexec)
  refine ⟨hsweep.size_le_of_ok hok, fun i hi => ?_⟩
  rw [hsweep.slotAt hi]
  exact toNat_of_tagMatches (hsweep.ok_iff.mp hok i.toNat hi)

/-- Settles O23: from start 0 both compare slot `i` with `i`. -/
theorem sweepAndRangeFromZeroAgree : Obligations.SweepAndRangeFromZeroAgree := by
  intro s size a rxs rest hst hlength hin
  obtain ⟨t, hexec, hsweep⟩ := exec_readAll_completes a hst hlength hin
  obtain ⟨u, hexec', hread⟩ := exec_readRange_completes 0 hst hlength hin
  have hslots := validatedSlots_congr (fun i (_ : i < size.toNat) => (Int.zero_add (i : Int)).symm) rxs s.slot
  exact ⟨t, u, hexec, hexec', hsweep.st, hread.st, hsweep.slot.trans (hslots.trans hread.slot.symm),
    hsweep.len.trans hread.len.symm, hread.ok⟩

/-- Settles O24: the words sent are a function of the request, and of the registers only SLOT and a sweep's OK depend on a
response. -/
theorem responsesChangeOnlyResults : Obligations.ResponsesChangeOnlyResults := by
  intro s op a n rxs rxs' rest hst hlength hsame
  have hlength' := hsame.trans hlength
  have hexec (ws : List Word) (h : ws.length = total op n + 1) :=
    SequencerStatements.operationAndTransferLevelsAgree { s with inputs := answers ws ++ rest } op a n ws rest (.inl hst) h rfl
  obtain ⟨hidle, hidle', hlen, hidx, hlast, hop, ha, hn, hok⟩ :=
    operation_registers_eq op a n rxs rxs' s (answers rxs ++ rest) (answers rxs' ++ rest)
  have hsent := sent_operationEvents op a n hlength { s with inputs := answers rxs ++ rest }
  have hsent' := sent_operationEvents op a n hlength' { s with inputs := answers rxs' ++ rest }
  refine ⟨_, _, _, _, hexec rxs hlength, hexec rxs' hlength', operation_trace .., operation_trace ..,
    hsent.trans hsent'.symm, ?_, hidle, hidle', hlen, hidx, hlast, hop, ha, hn, rfl, rfl, hok⟩
  rw [hsent, length_requestWords, hlength]

/-- Settles O25: request `i` of the range asks for channel `start + i`, and response `i + 1` brings its sample. -/
theorem pipelinedRangeReadsTheSamples : Obligations.PipelinedRangeReadsTheSamples := by
  intro s start count rxs rest sample hst h0 h16 hlength hin
  obtain ⟨x, rfl⟩ := exists_signedOp (a := start) (by simp only [fitsSigned, decide_eq_true_eq]; omega)
  obtain ⟨y, rfl⟩ := exists_count (n := count) (by simp only [fitsCount, decide_eq_true_eq]; omega)
  obtain ⟨t, hexec, hread⟩ := exec_readRange_completes x hst hlength hin
  refine ⟨t, _, hexec, hread.st, hread.trace, fun hpipeline i hi => ?_⟩
  rw [exchanges_operationEvents_readRange] at hpipeline
  rw [hread.slotAt hi, validate_of_followsPipeline h0 h16 hlength hpipeline hi]

end Sys2Proof.ResultStatements
end
